-- ==== Sys2Proof/Word.lean ====
section
/-! DEFINITION. The words of the command port, the four channels and a value per channel.
TBPSG is a command-level block: a command and a response are each one 32-bit value (20_memory.md R63). -/

namespace Sys2Proof

/-- A command word or a response word (30_encoding.md R80, R92). -/
abbrev Word := BitVec 32

/-- One byte of the wave RAM (10_state.md R32). -/
abbrev Byte := BitVec 8

/-- The four channels in the spec's numbering 0, 1, 2, 3 (00_scope.md R3). -/
inductive Channel where
  | pulse1
  | pulse2
  | wave
  | noise
  deriving DecidableEq, Repr

/-- One value per channel: `PAN[ch]`, `MIXEN[ch]`, `chen[ch]` (10_state.md R27, R28, R42). -/
structure Quad (α : Type) where
  pulse1 : α
  pulse2 : α
  wave : α
  noise : α
  deriving DecidableEq, Repr

/-- The same value for every channel. -/
def Quad.all {α : Type} (v : α) : Quad α := ⟨v, v, v, v⟩

/-- The value of channel `ch`. -/
def Quad.get {α : Type} (q : Quad α) : Channel → α
  | .pulse1 => q.pulse1
  | .pulse2 => q.pulse2
  | .wave => q.wave
  | .noise => q.noise

/-- Replace the value of channel `ch` and no other. -/
def Quad.set {α : Type} (q : Quad α) (ch : Channel) (v : α) : Quad α :=
  match ch with
  | .pulse1 => { q with pulse1 := v }
  | .pulse2 => { q with pulse2 := v }
  | .wave => { q with wave := v }
  | .noise => { q with noise := v }

end Sys2Proof
end

