-- ==== Sys2Proof/Machine/Resampler.lean ====
section
/-! DEFINITION. The resampling method, the parameter `resampleKernel` of 00_scope.md R9, and its default, point sampling
(43_mixer_synth.md R206). A kernel is written over any type of state: all it can do to the block is to step it by cycle
amounts and to look at its mix. -/

namespace Sys2Proof.Machine

/-- One stereo sample of the PCM buffer: the 16-bit patterns of its two signed values (10_state.md R46). -/
structure Sample where
  left : BitVec 16
  right : BitVec 16
  deriving DecidableEq, Repr

/-- A resampling method: given how a state is stepped by an amount of cycles, how its mix is looked at, W and N, it makes
the samples of a frame, oldest first, and the state after the frame. What R206 asks of it is `LegalKernel`. -/
abbrev ResampleKernel : Type 1 :=
  (σ : Type) → (step : Rat → σ → σ) → (look : σ → Sample) → (w n : Nat) → σ → List Sample × σ

/-- `n` times: step, then look. The samples, oldest first, and the state after the last (R206). -/
def sampleLoop {σ : Type} (step : σ → σ) (look : σ → Sample) : Nat → σ → List Sample × σ
  | 0, s => ([], s)
  | n + 1, s =>
    let t := step s
    let r := sampleLoop step look n t
    (look t :: r.1, r.2)

/-- `resample(W, N)` by point sampling at N evenly spaced instants of the frame (R206). -/
def pointSampling : ResampleKernel := fun _ step look w n s =>
  if n = 0 then ([], step (w : Rat) s) else sampleLoop (step ((w : Rat) / (n : Rat))) look n s

end Sys2Proof.Machine
end

