-- ==== Sys2Proof/Config.lean ====
section
/-! DEFINITION. The implementation parameters of 00_scope.md R9 as one record, and the defaults the spec gives
for them. Every shared operation of the machine takes the record as an argument; the meanings run it at
`Config.params` (log entry 4). -/

namespace Sys2Proof.Config

/-- What the block does with a command it cannot perform: fault (default), or do nothing and answer 0
(60_exceptions.md R220, R228). -/
inductive IllegalPolicy where
  | fault
  | ignore
  deriving DecidableEq, Repr

/-- `ResetValues`: one value per programmable register of R21 to R29 and the wave RAM
(00_scope.md R9, 10_state.md R50). -/
structure ResetValues where
  freq1 : BitVec 11
  freq2 : BitVec 11
  freq3 : BitVec 11
  duty1 : BitVec 2
  duty2 : BitVec 2
  wvol : BitVec 2
  nctrl : BitVec 8
  env1 : BitVec 8
  env2 : BitVec 8
  env4 : BitVec 8
  sweep : BitVec 7
  pan : Quad (BitVec 2)
  mixen : Quad (BitVec 1)
  mvol : BitVec 8
  /-- the wave RAM, in the canonical form of `Memory.wf`: an unlisted byte is 0x00 -/
  waveRam : List Host.Cell
  deriving DecidableEq, Repr

/-- The thirteen named parameters of 00_scope.md R9. -/
structure Params where
  /-- `CLOCK_HZ` -/
  clockHz : Nat
  /-- `FREQ_BITS`, the significant bits of a frequency register: at most 11, so that 2048 - f >= 1 (log entry 3) -/
  freqBits : Nat
  /-- `MAX_FREQ` -/
  maxFreq : Nat
  /-- `DUTY_MASK`: byte d is the waveform of duty d -/
  dutyMask : BitVec 32
  /-- `drfTable`, indexed by `NCTRL.drf` -/
  drfTable : Vector Nat 8
  /-- `LFSR_INIT` -/
  lfsrInit : BitVec 15
  /-- `volTable`, indexed by a channel's output -/
  volTable : Vector Nat 16
  /-- `ENV_PERIOD_SCALE` -/
  envPeriodScale : Nat
  /-- `SWEEP_PERIOD_SCALE` -/
  sweepPeriodScale : Nat
  /-- `PCM_SCALE` -/
  pcmScale : Nat
  /-- `illegalPolicy` -/
  illegalPolicy : IllegalPolicy
  /-- `resampleKernel`, a function (log entry 5) -/
  resampleKernel : Machine.ResampleKernel
  /-- `ResetValues` -/
  resetValues : ResetValues

/-- The default reset values: all zero (10_state.md R50). -/
def resetValues : ResetValues where
  freq1 := 0
  freq2 := 0
  freq3 := 0
  duty1 := 0
  duty2 := 0
  wvol := 0
  nctrl := 0
  env1 := 0
  env2 := 0
  env4 := 0
  sweep := 0
  pan := Quad.all 0
  mixen := Quad.all 0
  mvol := 0
  waveRam := []

/-- The defaults of 00_scope.md R9. -/
def params : Params where
  clockHz := 4194304
  freqBits := 11
  maxFreq := 2047
  dutyMask := 0x7EE18180#32
  drfTable := #v[8, 16, 32, 48, 64, 80, 96, 112]
  lfsrInit := 0x7FFF#15
  volTable := #v[0, 1, 2, 3, 4, 5, 6, 7, 8, 9, 10, 11, 12, 13, 14, 15]
  envPeriodScale := 1
  sweepPeriodScale := 1
  pcmScale := 64
  illegalPolicy := .fault
  resampleKernel := Machine.pointSampling
  resetValues := resetValues

end Sys2Proof.Config
end

