-- ==== Sys2Proof/Syntax.lean ====
section
/-! DEFINITION. The 64 instructions, one constructor per row of spec/opcode_table.json. Operands have exactly the
width the row gives them; a channel number is decoded into `Channel`. `GSTEP`'s amount is UQ12.4 and `SETFPS`'s
immediate UQ16.8 (30_encoding.md R87). -/

namespace Sys2Proof

inductive Instr where
  -- WR: write a register (opcode 0x01; R101 to R121).
  | wrFreq1 (data : BitVec 11)
  | wrDuty1 (data : BitVec 2)
  | wrEnv1 (data : BitVec 8)
  | wrPan1 (data : BitVec 2)
  | wrMixen1 (data : BitVec 1)
  | wrSweep (data : BitVec 7)
  | wrFreq2 (data : BitVec 11)
  | wrDuty2 (data : BitVec 2)
  | wrEnv2 (data : BitVec 8)
  | wrPan2 (data : BitVec 2)
  | wrMixen2 (data : BitVec 1)
  | wrFreq3 (data : BitVec 11)
  | wrWvol (data : BitVec 2)
  | wrPan3 (data : BitVec 2)
  | wrMixen3 (data : BitVec 1)
  | wrNctrl (data : BitVec 8)
  | wrEnv4 (data : BitVec 8)
  | wrPan4 (data : BitVec 2)
  | wrMixen4 (data : BitVec 1)
  | wrMvol (left : BitVec 3) (right : BitVec 3)
  | wrWave (i : BitVec 4) (data : BitVec 8)
  -- RD: read a register (opcode 0x02; R123 to R129).
  | rdFreq1
  | rdDuty1
  | rdEnv1
  | rdPan1
  | rdMixen1
  | rdSweep
  | rdShadow
  | rdOut1
  | rdEvol1
  | rdFreq2
  | rdDuty2
  | rdEnv2
  | rdPan2
  | rdMixen2
  | rdOut2
  | rdEvol2
  | rdFreq3
  | rdWvol
  | rdPan3
  | rdMixen3
  | rdOut3
  | rdNctrl
  | rdEnv4
  | rdPan4
  | rdMixen4
  | rdLfsr
  | rdOut4
  | rdEvol4
  | rdMvol
  | rdStatus
  | rdWave (i : BitVec 4)
  -- RDPCM: one value of the PCM frame (opcode 0x03; R130).
  | rdpcm (idx : BitVec 24)
  -- TRIG, GSTEP: the generators (opcodes 0x10, 0x11; R153, R152).
  | trig (ch : Channel)
  | gstep (ch : Channel) (cycles : BitVec 16)
  -- ETICK, STICK: the modulators (opcodes 0x12, 0x13; R171, R174).
  | etick0
  | etick1
  | etick3
  | stick
  -- MIX and the frame driver (opcodes 0x20, 0x30 to 0x33; R192 to R200).
  | mix
  | run
  | reset
  | setfps (imm : BitVec 24)
  | setrate (imm : BitVec 24)
  deriving DecidableEq, Repr

end Sys2Proof
end

