-- ==== Sys2Proof/WellFormed.lean ====
section
/-! DEFINITION. Well-formed instructions. Every operand's width is in its type, so one check is left: the
immediate of SETFPS and of SETRATE is not 0 (30_encoding.md R88, and the note of these two rows). -/

namespace Sys2Proof

/-- The instruction is a legal spelling of its row. -/
def Instr.wf (i : Instr) : Bool :=
  match i with
  | .wrFreq1 _ => true
  | .wrDuty1 _ => true
  | .wrEnv1 _ => true
  | .wrPan1 _ => true
  | .wrMixen1 _ => true
  | .wrSweep _ => true
  | .wrFreq2 _ => true
  | .wrDuty2 _ => true
  | .wrEnv2 _ => true
  | .wrPan2 _ => true
  | .wrMixen2 _ => true
  | .wrFreq3 _ => true
  | .wrWvol _ => true
  | .wrPan3 _ => true
  | .wrMixen3 _ => true
  | .wrNctrl _ => true
  | .wrEnv4 _ => true
  | .wrPan4 _ => true
  | .wrMixen4 _ => true
  | .wrMvol _ _ => true
  | .wrWave _ _ => true
  | .rdFreq1 => true
  | .rdDuty1 => true
  | .rdEnv1 => true
  | .rdPan1 => true
  | .rdMixen1 => true
  | .rdSweep => true
  | .rdShadow => true
  | .rdOut1 => true
  | .rdEvol1 => true
  | .rdFreq2 => true
  | .rdDuty2 => true
  | .rdEnv2 => true
  | .rdPan2 => true
  | .rdMixen2 => true
  | .rdOut2 => true
  | .rdEvol2 => true
  | .rdFreq3 => true
  | .rdWvol => true
  | .rdPan3 => true
  | .rdMixen3 => true
  | .rdOut3 => true
  | .rdNctrl => true
  | .rdEnv4 => true
  | .rdPan4 => true
  | .rdMixen4 => true
  | .rdLfsr => true
  | .rdOut4 => true
  | .rdEvol4 => true
  | .rdMvol => true
  | .rdStatus => true
  | .rdWave _ => true
  | .rdpcm _ => true
  | .trig _ => true
  | .gstep _ _ => true
  | .etick0 => true
  | .etick1 => true
  | .etick3 => true
  | .stick => true
  | .mix => true
  | .run => true
  | .reset => true
  | .setfps imm => imm != 0
  | .setrate imm => imm != 0

/-- `Instr.wf` as a proposition. -/
abbrev Instr.WellFormed (i : Instr) : Prop := i.wf = true

end Sys2Proof
end

