-- ==== Sys2Proof/Decode.lean ====
section
/-! DEFINITION. The decoder (30_encoding.md R80 to R91, 20_memory.md R61), total on every word and rejecting by the
fault R90 gives, and the encoder written from the same tables. R90's steps 1, 2, the address part of 3, and the
over-wide data of 4 depend on the word alone and are decided here; `RDPCM`'s range, `imm = 0` and `RUN`'s
configuration are tested by the meanings. The width of the three frequency registers is the parameter `FREQ_BITS`
(00_scope.md R9, log entry 3), so the decoder takes the parameters; `decode` is the decoder at their defaults. -/

namespace Sys2Proof

/-- Why a word is no instruction, by the names of 60_exceptions.md R222. -/
inductive DecodeError where
  /-- R90 step 1: `w[31:24]` is none of the twelve opcodes. -/
  | illegalOpcode
  /-- R90 steps 2 and 4: a must-be-zero field, a channel number or over-wide data. -/
  | illegalOperand
  /-- R90 step 3: a reserved address, or `WR` of a read-only one. -/
  | illegalAddress
  deriving DecidableEq, Repr

/-- The answer of the decoder. -/
inductive Decoded where
  | instr (i : Instr)
  | bad (e : DecodeError)
  deriving DecidableEq, Repr

/-- `w[31:24]`, the opcode in every format (R80). -/
def opcodeField (w : Word) : BitVec 8 := w.extractLsb' 24 8

/-- `w[23:16]`: `addr` of formats W and R, `ch` of format C (R81 to R83). -/
def addrField (w : Word) : BitVec 8 := w.extractLsb' 16 8

/-- `w[15:0]`: `data`, `arg`, or the reserved half (R81 to R83). -/
def dataField (w : Word) : BitVec 16 := w.extractLsb' 0 16

/-- `w[23:0]`: `imm` of format I, the reserved part of format Z (R84, R85). -/
def immField (w : Word) : BitVec 24 := w.extractLsb' 0 24

/-- The twelve opcodes of R86. -/
def definedOpcodes : List (BitVec 8) :=
  [0x01, 0x02, 0x03, 0x10, 0x11, 0x12, 0x13, 0x20, 0x30, 0x31, 0x32, 0x33]

/-- A writable register as a write point: the data bits it has (R61's width; `MVOL` without bits 7 and 3) and the
instruction that a legal data value makes. -/
structure WritePoint where
  legal : BitVec 16
  make : BitVec 16 → Instr

/-- The data bits a frequency register of `FREQ_BITS` bits has. -/
def freqMask (p : Config.Params) : BitVec 16 := BitVec.ofNat 16 (2 ^ p.freqBits - 1)

/-- The write points of the address map (R61, column "rw"); `none` where the address is reserved or read-only. -/
def writePoint (p : Config.Params) (addr : BitVec 8) : Option WritePoint :=
  match addr with
  | 0x00#8 => some ⟨freqMask p, fun d => .wrFreq1 (d.extractLsb' 0 11)⟩
  | 0x01#8 => some ⟨0x0003#16, fun d => .wrDuty1 (d.extractLsb' 0 2)⟩
  | 0x02#8 => some ⟨0x00FF#16, fun d => .wrEnv1 (d.extractLsb' 0 8)⟩
  | 0x03#8 => some ⟨0x0003#16, fun d => .wrPan1 (d.extractLsb' 0 2)⟩
  | 0x04#8 => some ⟨0x0001#16, fun d => .wrMixen1 (d.extractLsb' 0 1)⟩
  | 0x05#8 => some ⟨0x007F#16, fun d => .wrSweep (d.extractLsb' 0 7)⟩
  | 0x10#8 => some ⟨freqMask p, fun d => .wrFreq2 (d.extractLsb' 0 11)⟩
  | 0x11#8 => some ⟨0x0003#16, fun d => .wrDuty2 (d.extractLsb' 0 2)⟩
  | 0x12#8 => some ⟨0x00FF#16, fun d => .wrEnv2 (d.extractLsb' 0 8)⟩
  | 0x13#8 => some ⟨0x0003#16, fun d => .wrPan2 (d.extractLsb' 0 2)⟩
  | 0x14#8 => some ⟨0x0001#16, fun d => .wrMixen2 (d.extractLsb' 0 1)⟩
  | 0x20#8 => some ⟨freqMask p, fun d => .wrFreq3 (d.extractLsb' 0 11)⟩
  | 0x21#8 => some ⟨0x0003#16, fun d => .wrWvol (d.extractLsb' 0 2)⟩
  | 0x23#8 => some ⟨0x0003#16, fun d => .wrPan3 (d.extractLsb' 0 2)⟩
  | 0x24#8 => some ⟨0x0001#16, fun d => .wrMixen3 (d.extractLsb' 0 1)⟩
  | 0x30#8 => some ⟨0x00FF#16, fun d => .wrNctrl (d.extractLsb' 0 8)⟩
  | 0x32#8 => some ⟨0x00FF#16, fun d => .wrEnv4 (d.extractLsb' 0 8)⟩
  | 0x33#8 => some ⟨0x0003#16, fun d => .wrPan4 (d.extractLsb' 0 2)⟩
  | 0x34#8 => some ⟨0x0001#16, fun d => .wrMixen4 (d.extractLsb' 0 1)⟩
  | 0x40#8 => some ⟨0x0077#16, fun d => .wrMvol (d.extractLsb' 4 3) (d.extractLsb' 0 3)⟩
  | _ =>
    if addr.extractLsb' 4 4 = 0x8#4 then
      some ⟨0x00FF#16, fun d => .wrWave (addr.extractLsb' 0 4) (d.extractLsb' 0 8)⟩
    else none

/-- The readable registers of the address map (R61, "rw" and "ro"); `none` where the address is reserved. -/
def readPoint (addr : BitVec 8) : Option Instr :=
  match addr with
  | 0x00#8 => some .rdFreq1
  | 0x01#8 => some .rdDuty1
  | 0x02#8 => some .rdEnv1
  | 0x03#8 => some .rdPan1
  | 0x04#8 => some .rdMixen1
  | 0x05#8 => some .rdSweep
  | 0x06#8 => some .rdShadow
  | 0x07#8 => some .rdOut1
  | 0x08#8 => some .rdEvol1
  | 0x10#8 => some .rdFreq2
  | 0x11#8 => some .rdDuty2
  | 0x12#8 => some .rdEnv2
  | 0x13#8 => some .rdPan2
  | 0x14#8 => some .rdMixen2
  | 0x17#8 => some .rdOut2
  | 0x18#8 => some .rdEvol2
  | 0x20#8 => some .rdFreq3
  | 0x21#8 => some .rdWvol
  | 0x23#8 => some .rdPan3
  | 0x24#8 => some .rdMixen3
  | 0x27#8 => some .rdOut3
  | 0x30#8 => some .rdNctrl
  | 0x32#8 => some .rdEnv4
  | 0x33#8 => some .rdPan4
  | 0x34#8 => some .rdMixen4
  | 0x36#8 => some .rdLfsr
  | 0x37#8 => some .rdOut4
  | 0x38#8 => some .rdEvol4
  | 0x40#8 => some .rdMvol
  | 0x41#8 => some .rdStatus
  | _ => if addr.extractLsb' 4 4 = 0x8#4 then some (.rdWave (addr.extractLsb' 0 4)) else none

/-- The channel of a channel number; only 0 to 3 are legal (R83). -/
def channelOf (ch : BitVec 8) : Option Channel :=
  match ch with
  | 0#8 => some .pulse1
  | 1#8 => some .pulse2
  | 2#8 => some .wave
  | 3#8 => some .noise
  | _ => none

/-- `ETICK`'s channels: those with an envelope, 0, 1 and 3 (R88, 42_modulators.md R171). -/
def etickOf (ch : BitVec 8) : Option Instr :=
  match ch with
  | 0#8 => some .etick0
  | 1#8 => some .etick1
  | 3#8 => some .etick3
  | _ => none

/-- Format W after its opcode: the address first, then the data (R90 steps 3, 4). -/
def decodeWr (p : Config.Params) (addr : BitVec 8) (data : BitVec 16) : Decoded :=
  match writePoint p addr with
  | none => .bad .illegalAddress
  | some r => if data &&& ~~~r.legal = 0 then .instr (r.make data) else .bad .illegalOperand

/-- Format R after its opcode: the reserved half first, then the address (R90 steps 2, 3). -/
def decodeRd (addr : BitVec 8) (reserved : BitVec 16) : Decoded :=
  if reserved = 0 then
    match readPoint addr with
    | some i => .instr i
    | none => .bad .illegalAddress
  else .bad .illegalOperand

/-- An instruction if the must-be-zero field is zero and the operand exists (R90 step 2). -/
def needZero {n : Nat} (field : BitVec n) (i : Option Instr) : Decoded :=
  match i with
  | some i => if field = 0 then .instr i else .bad .illegalOperand
  | none => .bad .illegalOperand

/-- The decoder for given parameters: the opcode map of R86, checks in the order of R90. -/
def decodeWith (p : Config.Params) (w : Word) : Decoded :=
  match opcodeField w with
  | 0x01#8 => decodeWr p (addrField w) (dataField w)
  | 0x02#8 => decodeRd (addrField w) (dataField w)
  | 0x03#8 => .instr (.rdpcm (immField w))
  | 0x10#8 => needZero (dataField w) ((channelOf (addrField w)).map .trig)
  | 0x11#8 => needZero 0#0 ((channelOf (addrField w)).map fun ch => .gstep ch (dataField w))
  | 0x12#8 => needZero (dataField w) (etickOf (addrField w))
  | 0x13#8 => needZero (immField w) (some .stick)
  | 0x20#8 => needZero (immField w) (some .mix)
  | 0x30#8 => needZero (immField w) (some .run)
  | 0x31#8 => needZero (immField w) (some .reset)
  | 0x32#8 => .instr (.setfps (immField w))
  | 0x33#8 => .instr (.setrate (immField w))
  | _ => .bad .illegalOpcode

/-- The decoder at the default parameters. -/
def decode (w : Word) : Decoded := decodeWith Config.params w

/-- Formats W, R and C: opcode, address or channel, data or argument (R81 to R83). -/
def wordOf (op addr : BitVec 8) (data : BitVec 16) : Word := (op ++ addr ++ data : BitVec (8 + 8 + 16))

/-- Formats I and Z: opcode and immediate (R84, R85). -/
def immWordOf (op : BitVec 8) (imm : BitVec 24) : Word := (op ++ imm : BitVec (8 + 24))

/-- The channel number in bits 23:16 (00_scope.md R3). -/
def channelNumber : Channel → BitVec 8
  | .pulse1 => 0#8
  | .pulse2 => 1#8
  | .wave => 2#8
  | .noise => 3#8

/-- The word of an instruction. -/
def encode (i : Instr) : Word :=
  match i with
  | .wrFreq1 data => wordOf 0x01#8 0x00#8 (data.setWidth 16)
  | .wrDuty1 data => wordOf 0x01#8 0x01#8 (data.setWidth 16)
  | .wrEnv1 data => wordOf 0x01#8 0x02#8 (data.setWidth 16)
  | .wrPan1 data => wordOf 0x01#8 0x03#8 (data.setWidth 16)
  | .wrMixen1 data => wordOf 0x01#8 0x04#8 (data.setWidth 16)
  | .wrSweep data => wordOf 0x01#8 0x05#8 (data.setWidth 16)
  | .wrFreq2 data => wordOf 0x01#8 0x10#8 (data.setWidth 16)
  | .wrDuty2 data => wordOf 0x01#8 0x11#8 (data.setWidth 16)
  | .wrEnv2 data => wordOf 0x01#8 0x12#8 (data.setWidth 16)
  | .wrPan2 data => wordOf 0x01#8 0x13#8 (data.setWidth 16)
  | .wrMixen2 data => wordOf 0x01#8 0x14#8 (data.setWidth 16)
  | .wrFreq3 data => wordOf 0x01#8 0x20#8 (data.setWidth 16)
  | .wrWvol data => wordOf 0x01#8 0x21#8 (data.setWidth 16)
  | .wrPan3 data => wordOf 0x01#8 0x23#8 (data.setWidth 16)
  | .wrMixen3 data => wordOf 0x01#8 0x24#8 (data.setWidth 16)
  | .wrNctrl data => wordOf 0x01#8 0x30#8 (data.setWidth 16)
  | .wrEnv4 data => wordOf 0x01#8 0x32#8 (data.setWidth 16)
  | .wrPan4 data => wordOf 0x01#8 0x33#8 (data.setWidth 16)
  | .wrMixen4 data => wordOf 0x01#8 0x34#8 (data.setWidth 16)
  | .wrMvol left right => wordOf 0x01#8 0x40#8 (left.setWidth 16 <<< 4 ||| right.setWidth 16)
  | .wrWave i data => wordOf 0x01#8 (0x80#8 ||| i.setWidth 8) (data.setWidth 16)
  | .rdFreq1 => wordOf 0x02#8 0x00#8 0#16
  | .rdDuty1 => wordOf 0x02#8 0x01#8 0#16
  | .rdEnv1 => wordOf 0x02#8 0x02#8 0#16
  | .rdPan1 => wordOf 0x02#8 0x03#8 0#16
  | .rdMixen1 => wordOf 0x02#8 0x04#8 0#16
  | .rdSweep => wordOf 0x02#8 0x05#8 0#16
  | .rdShadow => wordOf 0x02#8 0x06#8 0#16
  | .rdOut1 => wordOf 0x02#8 0x07#8 0#16
  | .rdEvol1 => wordOf 0x02#8 0x08#8 0#16
  | .rdFreq2 => wordOf 0x02#8 0x10#8 0#16
  | .rdDuty2 => wordOf 0x02#8 0x11#8 0#16
  | .rdEnv2 => wordOf 0x02#8 0x12#8 0#16
  | .rdPan2 => wordOf 0x02#8 0x13#8 0#16
  | .rdMixen2 => wordOf 0x02#8 0x14#8 0#16
  | .rdOut2 => wordOf 0x02#8 0x17#8 0#16
  | .rdEvol2 => wordOf 0x02#8 0x18#8 0#16
  | .rdFreq3 => wordOf 0x02#8 0x20#8 0#16
  | .rdWvol => wordOf 0x02#8 0x21#8 0#16
  | .rdPan3 => wordOf 0x02#8 0x23#8 0#16
  | .rdMixen3 => wordOf 0x02#8 0x24#8 0#16
  | .rdOut3 => wordOf 0x02#8 0x27#8 0#16
  | .rdNctrl => wordOf 0x02#8 0x30#8 0#16
  | .rdEnv4 => wordOf 0x02#8 0x32#8 0#16
  | .rdPan4 => wordOf 0x02#8 0x33#8 0#16
  | .rdMixen4 => wordOf 0x02#8 0x34#8 0#16
  | .rdLfsr => wordOf 0x02#8 0x36#8 0#16
  | .rdOut4 => wordOf 0x02#8 0x37#8 0#16
  | .rdEvol4 => wordOf 0x02#8 0x38#8 0#16
  | .rdMvol => wordOf 0x02#8 0x40#8 0#16
  | .rdStatus => wordOf 0x02#8 0x41#8 0#16
  | .rdWave i => wordOf 0x02#8 (0x80#8 ||| i.setWidth 8) 0#16
  | .rdpcm idx => immWordOf 0x03#8 idx
  | .trig ch => wordOf 0x10#8 (channelNumber ch) 0#16
  | .gstep ch cycles => wordOf 0x11#8 (channelNumber ch) cycles
  | .etick0 => wordOf 0x12#8 0x00#8 0#16
  | .etick1 => wordOf 0x12#8 0x01#8 0#16
  | .etick3 => wordOf 0x12#8 0x03#8 0#16
  | .stick => immWordOf 0x13#8 0#24
  | .mix => immWordOf 0x20#8 0#24
  | .run => immWordOf 0x30#8 0#24
  | .reset => immWordOf 0x31#8 0#24
  | .setfps imm => immWordOf 0x32#8 imm
  | .setrate imm => immWordOf 0x33#8 imm

/-- What the decoder reads from an instruction word of `nbits` bits numbered as the opcode table numbers them. Every
row is one 32-bit word, so the word is `w`'s low `nbits` bits, zero above. -/
def decodeTableWord (nbits w : Nat) : Option Instr :=
  match decode (BitVec.ofNat 32 (w % 2 ^ nbits)) with
  | .instr i => some i
  | .bad _ => none

end Sys2Proof
end

