-- ==== Sys2Proof/Machine/State.lean ====
section
/-! DEFINITION. The architectural state of 10_state.md R20 by unit (00_scope.md R2), the reasons a command can stop,
and the state at power-on (R50, 70_reset_and_hazards.md R240). -/

namespace Sys2Proof.Machine

/-- A generator's cycle counter and fractional-cycle carry (10_state.md R33, R34). -/
structure Timer where
  gcnt : Nat
  drift : Rat
  deriving DecidableEq, Repr

/-- An Envelope unit: register `ENV[ch]`, current volume and step counter (10_state.md R25, R38, R39). -/
structure Envelope where
  reg : BitVec 8
  evol : BitVec 4
  ecnt : Nat
  deriving DecidableEq, Repr

/-- A pulse channel (10_state.md R21, R22, R25, R33 to R35, R38, R39). -/
structure Pulse where
  freq : BitVec 11
  duty : BitVec 2
  env : Envelope
  timer : Timer
  dpos : BitVec 3
  deriving DecidableEq, Repr

/-- The wave channel and its wave RAM (10_state.md R21, R23, R32 to R34, R36). -/
structure Wave where
  freq : BitVec 11
  wvol : BitVec 2
  ram : List Host.Cell
  timer : Timer
  widx : BitVec 5
  deriving DecidableEq, Repr

/-- The noise channel (10_state.md R24, R25, R33, R34, R37 to R39). -/
structure Noise where
  nctrl : BitVec 8
  env : Envelope
  timer : Timer
  lfsr : BitVec 15
  deriving DecidableEq, Repr

/-- The Sweep unit of channel 0 (10_state.md R26, R40, R41). -/
structure Sweep where
  reg : BitVec 7
  shadow : BitVec 11
  scnt : Nat
  deriving DecidableEq, Repr

/-- The state of TBPSG (10_state.md R20), and the two lists of the command port. -/
structure State where
  pulse1 : Pulse
  pulse2 : Pulse
  wave : Wave
  noise : Noise
  sweep : Sweep
  /-- `chen[ch]`, the channel-active flags (R42) -/
  chen : Quad Bool
  /-- `PAN[ch]` (R27) -/
  pan : Quad (BitVec 2)
  /-- `MIXEN[ch]` (R28) -/
  mixen : Quad (BitVec 1)
  /-- `MVOL` (R29) -/
  mvol : BitVec 8
  /-- `FPS`, UQ16.8 Hz; 0 is "not configured" (R30) -/
  fps : BitVec 24
  /-- `RATE` in Hz; 0 is "not configured" (R31) -/
  rate : BitVec 24
  /-- a resize-and-reset is due (R43) -/
  pending : Bool
  /-- the carry of hardware cycles between frames (R44) -/
  ccarry : Rat
  /-- the carry of output samples between frames (R45) -/
  scarry : Rat
  /-- the capacity of the PCM buffer in stereo samples (R46) -/
  pcmCap : Nat
  /-- the last frame, oldest sample first; `pcmLen` is its length (R46; log entry 10) -/
  pcm : List Sample
  /-- MODEL'S OWN: the command words the host has issued and the block has not performed, oldest first (log entry 6) -/
  port : List Word
  /-- MODEL'S OWN: the responses given so far, oldest first (R92, R255; log entry 7) -/
  responses : List Word
  deriving DecidableEq, Repr

/-- `pcmLen`, the number of stereo samples of the last frame (R46). -/
def State.pcmLen (s : State) : Nat := s.pcm.length

/-- The causes of 60_exceptions.md R222, each with the faulting command word (R221). A fault has no side effect. The
model's run ends at it, as R225 asks: safe (log entry 1). -/
inductive Fault where
  /-- Cause 1, raised by step for a word whose opcode is undefined (R89). Safe. -/
  | illegalOpcode (w : Word)
  /-- Cause 2, raised by step for a must-be-zero field, a channel number or over-wide data, and by SETFPS and SETRATE
  for an immediate of 0 (R88). Safe. -/
  | illegalOperand (w : Word)
  /-- Cause 3, raised by step for a reserved address or a write of a read-only one, and by RDPCM for an index at or
  beyond 2 * pcmLen (R61, R130). Safe. -/
  | illegalAddress (w : Word)
  /-- Cause 4, raised by RUN when FPS or RATE is 0 (R201). Safe. -/
  | notConfigured (w : Word)
  deriving DecidableEq, Repr

/-- A step with no meaning. -/
inductive Refusal where
  /-- Raised by exec for an instruction that has no meaning yet; no instruction of this model is left so. Safe. -/
  | notModelled (mnemonic : String)
  deriving DecidableEq, Repr

/-- A generator timer at power-on (R50). -/
def Timer.zero : Timer := ⟨0, 0⟩

/-- The state at power-on: the first column of R50, with the register values and the LFSR seed of the parameters. -/
def State.powerOn (p : Config.Params) : State where
  pulse1 := ⟨p.resetValues.freq1, p.resetValues.duty1, ⟨p.resetValues.env1, 0, 0⟩, Timer.zero, 0⟩
  pulse2 := ⟨p.resetValues.freq2, p.resetValues.duty2, ⟨p.resetValues.env2, 0, 0⟩, Timer.zero, 0⟩
  wave := ⟨p.resetValues.freq3, p.resetValues.wvol, p.resetValues.waveRam, Timer.zero, 0⟩
  noise := ⟨p.resetValues.nctrl, ⟨p.resetValues.env4, 0, 0⟩, Timer.zero, p.lfsrInit⟩
  sweep := ⟨p.resetValues.sweep, 0, 0⟩
  chen := Quad.all false
  pan := p.resetValues.pan
  mixen := p.resetValues.mixen
  mvol := p.resetValues.mvol
  fps := 0
  rate := 0
  pending := true
  ccarry := 0
  scarry := 0
  pcmCap := 0
  pcm := []
  port := []
  responses := []

/-- The machine right after reset (70_reset_and_hazards.md R240). -/
def State.reset : State := State.powerOn Config.params

end Sys2Proof.Machine
end

