-- ==== Sys2Proof/Machine/Flags.lean ====
section
/-! DEFINITION. The flags: `chen[0..3]` and `pending`, who sets and clears them, and `STATUS` (10_state.md R42, R43,
R47, R55). No command has condition codes. -/

namespace Sys2Proof.Machine

/-- `chen[ch] <- 1`, done by `TRIG ch` alone (R55). -/
def State.activate (ch : Channel) (s : State) : State := { s with chen := s.chen.set ch true }

/-- `chen[0] <- 0`, done by a sweep overflow (42_modulators.md R175). -/
def State.disablePulse1 (s : State) : State := { s with chen := s.chen.set .pulse1 false }

/-- `pending <- 1; pcmLen <- 0`, done by `SETFPS` and `SETRATE` (43_mixer_synth.md R194, R195). -/
def State.invalidate (s : State) : State := { s with pending := true, pcm := [] }

/-- A flag at bit `n` of a byte. -/
def flagBit (b : Bool) (n : Nat) : BitVec 8 := (BitVec.ofBool b).setWidth 8 <<< n

/-- `STATUS` (40_register_access.md R128). -/
def statusByte (s : State) : BitVec 8 :=
  flagBit s.chen.pulse1 0 ||| flagBit s.chen.pulse2 1 ||| flagBit s.chen.wave 2 ||| flagBit s.chen.noise 3 |||
    flagBit s.pending 7

end Sys2Proof.Machine
end

