-- ==== Sys2Proof/Machine/Memory.lean ====
section
/-! DEFINITION. The wave RAM, address space `WAVERAM` of 20_memory.md R60: sixteen bytes, index 0 to 15, held as a list
of cells in one canonical form. An unlisted byte reads as 0x00, the reset value of 10_state.md R32. -/

namespace Sys2Proof.Machine

/-- What an unlisted byte of the wave RAM reads as (10_state.md R32, R50). -/
def Memory.blank : Byte := 0x00

/-- The number of bytes of the wave RAM (10_state.md R32). -/
def Memory.size : Nat := 16

/-- Every address listed is at least `lo`, addresses rise strictly and stay below `Memory.size`, no byte is blank. -/
def Memory.wfFrom (lo : Nat) : List Host.Cell → Bool
  | [] => true
  | (a, v) :: rest => decide (lo ≤ a) && decide (a < Memory.size) && v != Memory.blank && Memory.wfFrom (a + 1) rest

/-- The canonical form. -/
def Memory.wf (m : List Host.Cell) : Bool := Memory.wfFrom 0 m

/-- `MemRead(WAVERAM, a)` (00_scope.md R11). -/
def Memory.read (m : List Host.Cell) (a : Nat) : Byte :=
  match m with
  | [] => Memory.blank
  | (b, v) :: rest => if b = a then v else Memory.read rest a

/-- A cell put in front of a list of cells, or left out where its byte is blank. -/
def Memory.consCell (a : Nat) (v : Byte) (rest : List Host.Cell) : List Host.Cell :=
  if v = Memory.blank then rest else (a, v) :: rest

/-- `MemWrite(WAVERAM, a, v)` (00_scope.md R11), keeping the canonical form. -/
def Memory.write (m : List Host.Cell) (a : Nat) (v : Byte) : List Host.Cell :=
  match m with
  | [] => Memory.consCell a v []
  | (b, u) :: rest =>
    if b < a then (b, u) :: Memory.write rest a v
    else if b = a then Memory.consCell a v rest
    else Memory.consCell a v ((b, u) :: rest)

end Sys2Proof.Machine
end

