-- ==== Sys2Proof/Machine/Operands.lean ====
section
/-! DEFINITION. The operand forms (30_encoding.md R87) and the fields of the registers (10_state.md R23 to R29). -/

namespace Sys2Proof.Machine

/-- `zext_32` (00_scope.md R11). -/
def zext {n : Nat} (v : BitVec n) : Word := v.setWidth 32

/-- `GSTEP`'s argument, UQ12.4: `arg / 16` cycles (R87). -/
def gstepCycles (arg : BitVec 16) : Rat := (arg.toNat : Rat) / 16

/-- `floor(q)` of a non-negative rational as a natural (00_scope.md R10, R12). -/
def floorNat (q : Rat) : Nat := q.floor.toNat

/-- `frac(q) = q - floor(q)` of a non-negative rational (00_scope.md R10, R12). -/
def fracPart (q : Rat) : Rat := q - (floorNat q : Rat)

/-- `ENV.vol`, bits 7:4 (10_state.md R25). -/
def envVol (r : BitVec 8) : BitVec 4 := r.extractLsb' 4 4

/-- `ENV.dir`, bit 3: true is amplify (R25). -/
def envAmplify (r : BitVec 8) : Bool := r.getLsbD 3

/-- `ENV.period`, bits 2:0 (R25). -/
def envPeriod (r : BitVec 8) : BitVec 3 := r.extractLsb' 0 3

/-- `SWEEP.time`, bits 6:4 (10_state.md R26). -/
def sweepTime (r : BitVec 7) : BitVec 3 := r.extractLsb' 4 3

/-- `SWEEP.mode`, bit 3: true is subtraction (R26). -/
def sweepSubtract (r : BitVec 7) : Bool := r.getLsbD 3

/-- `SWEEP.shift`, bits 2:0 (R26). -/
def sweepShift (r : BitVec 7) : BitVec 3 := r.extractLsb' 0 3

/-- `NCTRL.scf`, bits 7:4 (10_state.md R24). -/
def noiseScf (r : BitVec 8) : BitVec 4 := r.extractLsb' 4 4

/-- `NCTRL.mode`, bit 3: true is the 7-bit mode (R24). -/
def noiseShort (r : BitVec 8) : Bool := r.getLsbD 3

/-- `NCTRL.drf`, bits 2:0 (R24). -/
def noiseDrf (r : BitVec 8) : BitVec 3 := r.extractLsb' 0 3

/-- `PAN.left`, bit 1 (10_state.md R27). -/
def panLeft (r : BitVec 2) : Bool := r.getLsbD 1

/-- `PAN.right`, bit 0 (R27). -/
def panRight (r : BitVec 2) : Bool := r.getLsbD 0

/-- `MVOL.left`, bits 6:4 (10_state.md R29). -/
def mvolLeft (r : BitVec 8) : BitVec 3 := r.extractLsb' 4 3

/-- `MVOL.right`, bits 2:0 (R29). -/
def mvolRight (r : BitVec 8) : BitVec 3 := r.extractLsb' 0 3

/-- The `MVOL` byte of two levels: bits 7 and 3 are 0 (R29, 40_register_access.md R120). -/
def mvolByte (left right : BitVec 3) : BitVec 8 := left.setWidth 8 <<< 4 ||| right.setWidth 8

/-- A byte's high nibble: the even one of its two samples (20_memory.md R62). -/
def highNibble (b : Byte) : BitVec 4 := b.extractLsb' 4 4

/-- A byte's low nibble: the odd one of its two samples (R62). -/
def lowNibble (b : Byte) : BitVec 4 := b.extractLsb' 0 4

/-- Two 16-bit patterns in one response, left in bits 31:16 (30_encoding.md R92). -/
def sampleWord (f : Sample) : Word := zext f.left <<< 16 ||| zext f.right

end Sys2Proof.Machine
end

