-- ==== Sys2Proof/Machine/Ops.lean ====
section
/-! DEFINITION. The operations every command shares: the response, the fault, `powerOnValues()`, `use()`, and the
common part of `WR`, `RD` and the commands that answer 0. -/

namespace Sys2Proof.Machine

/-- The command ends with a response word (30_encoding.md R92). -/
def State.respond (r : Word) (s : State) : State := { s with responses := s.responses ++ [r] }

/-- `raise F(w)`, the one way a command faults. Under the default policy the outcome is the fault and the state is as
before the command (60_exceptions.md R220, R221, R225). Under `ignore` the command is a no-op with response 0
(R228). There is no handler, hence no entry and no return (R232, R233). -/
def raise (p : Config.Params) (f : Fault) (s : State) : Host.Outcome State Fault Refusal :=
  match p.illegalPolicy with
  | .fault => .fault f
  | .ignore => .next (s.respond 0)

/-- `powerOnValues()` (43_mixer_synth.md R196): every item of 10_state.md R50 but `FPS`, `RATE`, `pcmCap` and
`pending` returns to its power-on value. The two lists of the port are not the block's and stay. -/
def powerOnValues (p : Config.Params) (s : State) : State :=
  { State.powerOn p with
    fps := s.fps
    rate := s.rate
    pcmCap := s.pcmCap
    pending := s.pending
    port := s.port
    responses := s.responses }

/-- Both rates are configured (10_state.md R30, R31). -/
def State.configured (s : State) : Bool := s.fps != 0 && s.rate != 0

/-- The capacity a resize gives: `floor(RATE * 256 / FPS) + 1` (43_mixer_synth.md R196). -/
def frameCapacity (s : State) : Nat := s.rate.toNat * 256 / s.fps.toNat + 1

/-- The resize of a resize-and-reset (R196). -/
def resize (s : State) : State := if s.configured then { s with pcmCap := frameCapacity s } else s

/-- `use()` (R196): the pending resize-and-reset, performed by every command but `SETFPS`, `SETRATE` and `RDPCM`
after its fault checks. -/
def use (p : Config.Params) (s : State) : State :=
  if s.pending then { powerOnValues p (resize s) with pending := false } else s

/-- A command that uses the block, changes it by `f` and answers 0. -/
def perform0 (p : Config.Params) (f : State → State) (s : State) : Host.Outcome State Fault Refusal :=
  .next ((f (use p s)).respond 0)

/-- A command that uses the block, changes nothing further and answers `value` (40_register_access.md R122). -/
def observe (p : Config.Params) (value : State → Word) (s : State) : Host.Outcome State Fault Refusal :=
  .next ((use p s).respond (value (use p s)))

end Sys2Proof.Machine
end

