-- ==== Sys2Proof/Machine/Generators.lean ====
section
/-! DEFINITION. The generators (41_generators.md): periods, stepping, outputs, and the instructions `GSTEP` and
`TRIG`. -/

namespace Sys2Proof.Machine

/-- Pulse period: `(2048 - FREQ) * 4` cycles (R140). -/
def Pulse.period (g : Pulse) : Nat := (2048 - g.freq.toNat) * 4

/-- Wave period: `(2048 - FREQ) * 2` cycles (R141). -/
def Wave.period (g : Wave) : Nat := (2048 - g.freq.toNat) * 2

/-- Noise period: `drfTable[drf] << (scf + 1)` cycles (R142). -/
def Noise.period (p : Config.Params) (g : Noise) : Nat :=
  p.drfTable[(noiseDrf g.nctrl).toNat] <<< ((noiseScf g.nctrl).toNat + 1)

/-- The counter after `n` whole cycles against `period` (R144 to R146). -/
def Timer.count (period n : Nat) (t : Timer) : Timer := { t with gcnt := (t.gcnt + n) % period }

/-- How many positions `n` whole cycles advance (R144 to R146). -/
def Timer.steps (period n : Nat) (t : Timer) : Nat := (t.gcnt + n) / period

/-- The whole cycles of an amount `c` with the carry (R143). -/
def Timer.whole (c : Rat) (t : Timer) : Nat := floorNat (t.drift + c)

/-- The carry kept of an amount `c` (R143). -/
def Timer.carry (c : Rat) (t : Timer) : Timer := { t with drift := fracPart (t.drift + c) }

/-- Pulse whole-cycle step (R144); the position is modulo 8. -/
def Pulse.wholeStep (n : Nat) (g : Pulse) : Pulse :=
  { g with
    timer := g.timer.count g.period n
    dpos := BitVec.ofNat 3 ((g.dpos.toNat + g.timer.steps g.period n) % 8) }

/-- Wave whole-cycle step (R145); the index is modulo 32. -/
def Wave.wholeStep (n : Nat) (g : Wave) : Wave :=
  { g with
    timer := g.timer.count g.period n
    widx := BitVec.ofNat 5 ((g.widx.toNat + g.timer.steps g.period n) % 32) }

/-- One shift of the LFSR (R146): x = bit 0 ^ bit 1 enters at bit 14 and, in 7-bit mode, replaces bit 6. -/
def lfsrShift (short : Bool) (l : BitVec 15) : BitVec 15 :=
  let x := (BitVec.ofBool (l.getLsbD 0 ^^ l.getLsbD 1)).setWidth 15
  let shifted := l >>> 1 ||| x <<< 14
  if short then shifted &&& ~~~(1#15 <<< 6) ||| x <<< 6 else shifted

/-- Noise whole-cycle step (R146). -/
def Noise.wholeStep (p : Config.Params) (n : Nat) (g : Noise) : Noise :=
  { g with
    timer := g.timer.count (g.period p) n
    lfsr := (lfsrShift (noiseShort g.nctrl))^[g.timer.steps (g.period p) n] g.lfsr }

/-- `advance(ch, c)` of a pulse generator (R143). -/
def Pulse.advance (c : Rat) (g : Pulse) : Pulse :=
  { g with timer := g.timer.carry c }.wholeStep (g.timer.whole c)

/-- `advance(2, c)` (R143). -/
def Wave.advance (c : Rat) (g : Wave) : Wave :=
  { g with timer := g.timer.carry c }.wholeStep (g.timer.whole c)

/-- `advance(3, c)` (R143). -/
def Noise.advance (p : Config.Params) (c : Rat) (g : Noise) : Noise :=
  { g with timer := g.timer.carry c }.wholeStep p (g.timer.whole c)

/-- `advance(ch, c)` on the state (R143). -/
def advance (p : Config.Params) (ch : Channel) (c : Rat) (s : State) : State :=
  match ch with
  | .pulse1 => { s with pulse1 := s.pulse1.advance c }
  | .pulse2 => { s with pulse2 := s.pulse2.advance c }
  | .wave => { s with wave := s.wave.advance c }
  | .noise => { s with noise := s.noise.advance p c }

/-- `stepAll(c)` (43_mixer_synth.md R204). -/
def stepAll (p : Config.Params) (c : Rat) (s : State) : State :=
  advance p .noise c (advance p .wave c (advance p .pulse2 c (advance p .pulse1 c s)))

/-- The bit of a pulse generator: `DUTY_MASK` at `(DUTY << 3) + dpos` (R148). -/
def Pulse.bit (p : Config.Params) (g : Pulse) : Bool := p.dutyMask.getLsbD (g.duty.toNat <<< 3 + g.dpos.toNat)

/-- Pulse output (R148). -/
def Pulse.out (p : Config.Params) (g : Pulse) : BitVec 4 := if g.bit p then g.env.evol else 0

/-- The wave sample at the index: high nibble on an even index (R149, 20_memory.md R62). -/
def Wave.nibble (g : Wave) : BitVec 4 :=
  if g.widx.toNat % 2 = 0 then highNibble (Memory.read g.ram (g.widx.toNat / 2))
  else lowNibble (Memory.read g.ram (g.widx.toNat / 2))

/-- Wave output (R149): mute, full, half, quarter for `WVOL` 0, 1, 2, 3. -/
def Wave.out (g : Wave) : BitVec 4 :=
  match g.wvol with
  | 0#2 => 0
  | 1#2 => g.nibble
  | 2#2 => g.nibble >>> 1
  | 3#2 => g.nibble >>> 2

/-- Noise output: the inverse of bit 0 (R150). -/
def Noise.out (g : Noise) : BitVec 4 := if g.lfsr.getLsbD 0 then 0 else g.env.evol

/-- `out(ch)` (R148 to R150). -/
def out (p : Config.Params) (ch : Channel) (s : State) : BitVec 4 :=
  match ch with
  | .pulse1 => s.pulse1.out p
  | .pulse2 => s.pulse2.out p
  | .wave => s.wave.out
  | .noise => s.noise.out

/-- `chOut(ch)`, the gated output (R151). -/
def chOut (p : Config.Params) (ch : Channel) (s : State) : BitVec 4 := if s.chen.get ch then out p ch s else 0

/-- An envelope restarted by a trigger (R153). -/
def Envelope.trigger (e : Envelope) : Envelope := { e with evol := envVol e.reg, ecnt := 0 }

/-- A pulse generator restarted by a trigger (R153). -/
def Pulse.trigger (g : Pulse) : Pulse := { g with env := g.env.trigger, timer := Timer.zero, dpos := 0 }

/-- The effect of `TRIG ch` (R153). -/
def trigger (p : Config.Params) (ch : Channel) (s : State) : State :=
  match ch with
  | .pulse1 =>
    { s.activate .pulse1 with
      pulse1 := s.pulse1.trigger
      sweep := { s.sweep with shadow := s.pulse1.freq, scnt := 0 } }
  | .pulse2 => { s.activate .pulse2 with pulse2 := s.pulse2.trigger }
  | .wave => { s.activate .wave with wave := { s.wave with timer := Timer.zero, widx := 0 } }
  | .noise =>
    { s.activate .noise with
      noise := { s.noise with env := s.noise.env.trigger, timer := Timer.zero, lfsr := p.lfsrInit } }

/-- `GSTEP ch, cycles` (R152). -/
def execGstep (ch : Channel) (cycles : BitVec 16) (s : State) : Host.Outcome State Fault Refusal :=
  perform0 Config.params (advance Config.params ch (gstepCycles cycles)) s

/-- `TRIG ch` (R153). -/
def execTrig (ch : Channel) (s : State) : Host.Outcome State Fault Refusal :=
  perform0 Config.params (trigger Config.params ch) s

end Sys2Proof.Machine
end

