-- ==== Sys2Proof/Machine/Mixer.lean ====
section
/-! DEFINITION. The mixer (43_mixer_synth.md R190 to R192) and the instruction `MIX`. -/

namespace Sys2Proof.Machine

/-- A channel's contribution to one side: `volTable[chOut(ch)]` if its mixer enable and its panning bit for that side
(`side`) are set, else 0 (R190). -/
def contribution (p : Config.Params) (side : BitVec 2 → Bool) (s : State) (ch : Channel) : Nat :=
  if s.mixen.get ch = 1 ∧ side (s.pan.get ch) then p.volTable[(chOut p ch s).toNat] else 0

/-- `acc(s)`, the sum over the four channels (R190). -/
def acc (p : Config.Params) (side : BitVec 2 → Bool) (s : State) : Nat :=
  contribution p side s .pulse1 + contribution p side s .pulse2 + contribution p side s .wave +
    contribution p side s .noise

/-- One side's PCM value: `acc * (level + 1) * PCM_SCALE` (R191). -/
def sideValue (p : Config.Params) (side : BitVec 2 → Bool) (level : BitVec 3) (s : State) : Nat :=
  acc p side s * (level.toNat + 1) * p.pcmScale

/-- `mixSample()` (R191). The default parameters keep both values within 0 to 30720; other parameters must keep the
constraint of 00_scope.md R9 (log entry 15). -/
def mixSample (p : Config.Params) (s : State) : Sample where
  left := BitVec.ofNat 16 (sideValue p panLeft (mvolLeft s.mvol) s)
  right := BitVec.ofNat 16 (sideValue p panRight (mvolRight s.mvol) s)

/-- `MIX` (R192). -/
def execMix (s : State) : Host.Outcome State Fault Refusal :=
  observe Config.params (fun t => sampleWord (mixSample Config.params t)) s

end Sys2Proof.Machine
end

