-- ==== Sys2Proof/Machine/Modulators.lean ====
section
/-! DEFINITION. The modulators (42_modulators.md): the envelope tick, the sweep tick, and the instructions `ETICK` and
`STICK`. -/

namespace Sys2Proof.Machine

/-- The envelope's period in ticks (R171, R179). -/
def Envelope.period (p : Config.Params) (e : Envelope) : Nat := (envPeriod e.reg).toNat * p.envPeriodScale

/-- The volume one step up or down, clamped at 15 and 0 (R171). -/
def Envelope.stepped (e : Envelope) : BitVec 4 :=
  if envAmplify e.reg then BitVec.ofNat 4 (min 15 (e.evol.toNat + 1)) else BitVec.ofNat 4 (e.evol.toNat - 1)

/-- `envTick(ch)` (R171). -/
def Envelope.tick (p : Config.Params) (e : Envelope) : Envelope :=
  if e.period p = 0 then e
  else if e.period p ≤ e.ecnt + 1 then { e with evol := e.stepped, ecnt := 0 }
  else { e with ecnt := e.ecnt + 1 }

/-- `envTick(0)`. -/
def envTick1 (p : Config.Params) (s : State) : State :=
  { s with pulse1 := { s.pulse1 with env := s.pulse1.env.tick p } }

/-- `envTick(1)`. -/
def envTick2 (p : Config.Params) (s : State) : State :=
  { s with pulse2 := { s.pulse2 with env := s.pulse2.env.tick p } }

/-- `envTick(3)`. -/
def envTick4 (p : Config.Params) (s : State) : State :=
  { s with noise := { s.noise with env := s.noise.env.tick p } }

/-- The sweep's period in ticks (R174, R179). -/
def Sweep.period (p : Config.Params) (w : Sweep) : Nat := (sweepTime w.reg).toNat * p.sweepPeriodScale

/-- `shadow >> SWEEP.shift` (R174). -/
def Sweep.delta (w : Sweep) : Nat := w.shadow.toNat >>> (sweepShift w.reg).toNat

/-- The write-back of a valid result to both `shadow` and `FREQ[0]` (R174, R178). -/
def sweepWriteBack (new : Nat) (s : State) : State :=
  { s with
    sweep := { s.sweep with shadow := BitVec.ofNat 11 new }
    pulse1 := { s.pulse1 with freq := BitVec.ofNat 11 new } }

/-- The calculation at an expiry (R174 to R177). -/
def sweepCalculate (p : Config.Params) (s : State) : State :=
  if sweepShift s.sweep.reg = 0 then s
  else if sweepSubtract s.sweep.reg then sweepWriteBack (s.sweep.shadow.toNat - s.sweep.delta) s
  else if p.maxFreq < s.sweep.shadow.toNat + s.sweep.delta then s.disablePulse1
  else sweepWriteBack (s.sweep.shadow.toNat + s.sweep.delta) s

/-- `sweepTick()` (R174). -/
def sweepTick (p : Config.Params) (s : State) : State :=
  if s.sweep.period p = 0 then s
  else if s.sweep.period p ≤ s.sweep.scnt + 1 then
    sweepCalculate p { s with sweep := { s.sweep with scnt := 0 } }
  else { s with sweep := { s.sweep with scnt := s.sweep.scnt + 1 } }

/-- The ticks a `RUN` performs at the start of a frame (43_mixer_synth.md R202). -/
def modulatorTicks (p : Config.Params) (s : State) : State :=
  sweepTick p (envTick4 p (envTick2 p (envTick1 p s)))

/-- `ETICK 0` (R171). -/
def execEtick0 (s : State) : Host.Outcome State Fault Refusal := perform0 Config.params (envTick1 Config.params) s

/-- `ETICK 1` (R171). -/
def execEtick1 (s : State) : Host.Outcome State Fault Refusal := perform0 Config.params (envTick2 Config.params) s

/-- `ETICK 3` (R171). -/
def execEtick3 (s : State) : Host.Outcome State Fault Refusal := perform0 Config.params (envTick4 Config.params) s

/-- `STICK` (R174). -/
def execStick (s : State) : Host.Outcome State Fault Refusal := perform0 Config.params (sweepTick Config.params) s

end Sys2Proof.Machine
end

