-- ==== Sys2Proof/Machine/FrameDriver.lean ====
section
/-! DEFINITION. The frame driver and the PCM buffer: `SETFPS`, `SETRATE`, `RESET`, `RUN` (43_mixer_synth.md R194 to
R209) and `RDPCM` (40_register_access.md R130). -/

namespace Sys2Proof.Machine

/-- Cycles per frame: `CLOCK_HZ * 256 / FPS`, exact (R198). -/
def cyclesPerFrame (p : Config.Params) (s : State) : Rat := ((p.clockHz * 256 : Nat) : Rat) / (s.fps.toNat : Rat)

/-- Samples per frame: `RATE * 256 / FPS`, exact (R199). -/
def samplesPerFrame (s : State) : Rat := ((s.rate.toNat * 256 : Nat) : Rat) / (s.fps.toNat : Rat)

/-- W, the whole cycles of this frame (R198). -/
def frameCycles (p : Config.Params) (s : State) : Nat := floorNat (cyclesPerFrame p s + s.ccarry)

/-- N, the stereo samples of this frame (R199). -/
def frameSamples (s : State) : Nat := floorNat (samplesPerFrame s + s.scarry)

/-- The two carries after the accountings of one frame (R198, R199). -/
def carryFrame (p : Config.Params) (s : State) : State :=
  { s with
    ccarry := fracPart (cyclesPerFrame p s + s.ccarry)
    scarry := fracPart (samplesPerFrame s + s.scarry) }

/-- `resample(W, N)` with the kernel of the parameters; the default is R206's point sampling. -/
def resample (p : Config.Params) (w n : Nat) (s : State) : List Sample × State :=
  p.resampleKernel State (stepAll p) (mixSample p) w n s

/-- One frame, after `use()`: modulator ticks, accountings, resampling, `pcmLen` (R200, R203, R207). -/
def runFrame (p : Config.Params) (s : State) : State :=
  let t := modulatorTicks p s
  let r := resample p (frameCycles p t) (frameSamples t) (carryFrame p t)
  { r.2 with pcm := r.1 }

/-- `RUN` (R200): the check of R201 is on the state before `use()`; the response is N. -/
def execRun (s : State) : Host.Outcome State Fault Refusal :=
  if s.configured then
    .next ((runFrame Config.params (use Config.params s)).respond
      (BitVec.ofNat 32 (frameSamples (use Config.params s))))
  else raise Config.params (.notConfigured (encode .run)) s

/-- `RESET` (R197). -/
def execReset (s : State) : Host.Outcome State Fault Refusal :=
  perform0 Config.params (powerOnValues Config.params) s

/-- `SETFPS imm` (R194); not a use. -/
def execSetfps (imm : BitVec 24) (s : State) : Host.Outcome State Fault Refusal :=
  if imm = 0 then raise Config.params (.illegalOperand (encode (.setfps imm))) s
  else .next (({ s with fps := imm }.invalidate).respond 0)

/-- `SETRATE imm` (R195); not a use. -/
def execSetrate (imm : BitVec 24) (s : State) : Host.Outcome State Fault Refusal :=
  if imm = 0 then raise Config.params (.illegalOperand (encode (.setrate imm))) s
  else .next (({ s with rate := imm }.invalidate).respond 0)

/-- `MemRead(PCM, j)`: even indices left, odd right; no value at or beyond `2 * pcmLen` (R130, R207, 20_memory.md
R73). -/
def pcmRead (pcm : List Sample) (j : Nat) : Option (BitVec 16) :=
  (pcm[j / 2]?).map fun f => if j % 2 = 0 then f.left else f.right

/-- `RDPCM idx` (R130); not a use. -/
def execRdpcm (idx : BitVec 24) (s : State) : Host.Outcome State Fault Refusal :=
  match pcmRead s.pcm idx.toNat with
  | some v => .next (s.respond (zext v))
  | none => raise Config.params (.illegalAddress (encode (.rdpcm idx))) s

end Sys2Proof.Machine
end

