-- ==== Sys2Proof/Machine/RegisterRead.lean ====
section
/-! DEFINITION. `RD` (40_register_access.md R122 to R129): `use()`, then the response is the register's value,
zero-extended. -/

namespace Sys2Proof.Machine

/-- `RD FREQ1` (R123). -/
def execRdFreq1 (s : State) : Host.Outcome State Fault Refusal :=
  observe Config.params (fun t => zext t.pulse1.freq) s

/-- `RD DUTY1` (R123). -/
def execRdDuty1 (s : State) : Host.Outcome State Fault Refusal :=
  observe Config.params (fun t => zext t.pulse1.duty) s

/-- `RD ENV1` (R123). -/
def execRdEnv1 (s : State) : Host.Outcome State Fault Refusal :=
  observe Config.params (fun t => zext t.pulse1.env.reg) s

/-- `RD PAN1` (R123). -/
def execRdPan1 (s : State) : Host.Outcome State Fault Refusal :=
  observe Config.params (fun t => zext t.pan.pulse1) s

/-- `RD MIXEN1` (R123). -/
def execRdMixen1 (s : State) : Host.Outcome State Fault Refusal :=
  observe Config.params (fun t => zext t.mixen.pulse1) s

/-- `RD SWEEP` (R123). -/
def execRdSweep (s : State) : Host.Outcome State Fault Refusal :=
  observe Config.params (fun t => zext t.sweep.reg) s

/-- `RD SHADOW` (R124). -/
def execRdShadow (s : State) : Host.Outcome State Fault Refusal :=
  observe Config.params (fun t => zext t.sweep.shadow) s

/-- `RD OUT1` (R125). -/
def execRdOut1 (s : State) : Host.Outcome State Fault Refusal :=
  observe Config.params (fun t => zext (chOut Config.params .pulse1 t)) s

/-- `RD EVOL1` (R126). -/
def execRdEvol1 (s : State) : Host.Outcome State Fault Refusal :=
  observe Config.params (fun t => zext t.pulse1.env.evol) s

/-- `RD FREQ2` (R123). -/
def execRdFreq2 (s : State) : Host.Outcome State Fault Refusal :=
  observe Config.params (fun t => zext t.pulse2.freq) s

/-- `RD DUTY2` (R123). -/
def execRdDuty2 (s : State) : Host.Outcome State Fault Refusal :=
  observe Config.params (fun t => zext t.pulse2.duty) s

/-- `RD ENV2` (R123). -/
def execRdEnv2 (s : State) : Host.Outcome State Fault Refusal :=
  observe Config.params (fun t => zext t.pulse2.env.reg) s

/-- `RD PAN2` (R123). -/
def execRdPan2 (s : State) : Host.Outcome State Fault Refusal :=
  observe Config.params (fun t => zext t.pan.pulse2) s

/-- `RD MIXEN2` (R123). -/
def execRdMixen2 (s : State) : Host.Outcome State Fault Refusal :=
  observe Config.params (fun t => zext t.mixen.pulse2) s

/-- `RD OUT2` (R125). -/
def execRdOut2 (s : State) : Host.Outcome State Fault Refusal :=
  observe Config.params (fun t => zext (chOut Config.params .pulse2 t)) s

/-- `RD EVOL2` (R126). -/
def execRdEvol2 (s : State) : Host.Outcome State Fault Refusal :=
  observe Config.params (fun t => zext t.pulse2.env.evol) s

/-- `RD FREQ3` (R123). -/
def execRdFreq3 (s : State) : Host.Outcome State Fault Refusal :=
  observe Config.params (fun t => zext t.wave.freq) s

/-- `RD WVOL` (R123). -/
def execRdWvol (s : State) : Host.Outcome State Fault Refusal :=
  observe Config.params (fun t => zext t.wave.wvol) s

/-- `RD PAN3` (R123). -/
def execRdPan3 (s : State) : Host.Outcome State Fault Refusal :=
  observe Config.params (fun t => zext t.pan.wave) s

/-- `RD MIXEN3` (R123). -/
def execRdMixen3 (s : State) : Host.Outcome State Fault Refusal :=
  observe Config.params (fun t => zext t.mixen.wave) s

/-- `RD OUT3` (R125). -/
def execRdOut3 (s : State) : Host.Outcome State Fault Refusal :=
  observe Config.params (fun t => zext (chOut Config.params .wave t)) s

/-- `RD NCTRL` (R123). -/
def execRdNctrl (s : State) : Host.Outcome State Fault Refusal :=
  observe Config.params (fun t => zext t.noise.nctrl) s

/-- `RD ENV4` (R123). -/
def execRdEnv4 (s : State) : Host.Outcome State Fault Refusal :=
  observe Config.params (fun t => zext t.noise.env.reg) s

/-- `RD PAN4` (R123). -/
def execRdPan4 (s : State) : Host.Outcome State Fault Refusal :=
  observe Config.params (fun t => zext t.pan.noise) s

/-- `RD MIXEN4` (R123). -/
def execRdMixen4 (s : State) : Host.Outcome State Fault Refusal :=
  observe Config.params (fun t => zext t.mixen.noise) s

/-- `RD LFSR` (R127). -/
def execRdLfsr (s : State) : Host.Outcome State Fault Refusal :=
  observe Config.params (fun t => zext t.noise.lfsr) s

/-- `RD OUT4` (R125). -/
def execRdOut4 (s : State) : Host.Outcome State Fault Refusal :=
  observe Config.params (fun t => zext (chOut Config.params .noise t)) s

/-- `RD EVOL4` (R126). -/
def execRdEvol4 (s : State) : Host.Outcome State Fault Refusal :=
  observe Config.params (fun t => zext t.noise.env.evol) s

/-- `RD MVOL` (R123). -/
def execRdMvol (s : State) : Host.Outcome State Fault Refusal :=
  observe Config.params (fun t => zext t.mvol) s

/-- `RD STATUS` (R128). -/
def execRdStatus (s : State) : Host.Outcome State Fault Refusal :=
  observe Config.params (fun t => zext (statusByte t)) s

/-- `RD WAVEi` (R129). -/
def execRdWave (i : BitVec 4) (s : State) : Host.Outcome State Fault Refusal :=
  observe Config.params (fun t => zext (Memory.read t.wave.ram i.toNat)) s

end Sys2Proof.Machine
end

