-- ==== Sys2Proof/Machine/RegisterWrite.lean ====
section
/-! DEFINITION. `WR` (40_register_access.md R100 to R121): after the checks of the decoder, `use()`, then exactly the
named register is written; response 0. -/

namespace Sys2Proof.Machine

/-- `FREQ1 <- data` (R101). -/
def setFreq1 (data : BitVec 11) (s : State) : State :=
  { s with pulse1 := { s.pulse1 with freq := data } }

/-- `WR FREQ1, data` (R101). -/
def execWrFreq1 (data : BitVec 11) (s : State) : Host.Outcome State Fault Refusal :=
  perform0 Config.params (setFreq1 data) s

/-- `DUTY1 <- data` (R102). -/
def setDuty1 (data : BitVec 2) (s : State) : State :=
  { s with pulse1 := { s.pulse1 with duty := data } }

/-- `WR DUTY1, data` (R102). -/
def execWrDuty1 (data : BitVec 2) (s : State) : Host.Outcome State Fault Refusal :=
  perform0 Config.params (setDuty1 data) s

/-- `ENV1 <- data` (R103). -/
def setEnv1 (data : BitVec 8) (s : State) : State :=
  { s with pulse1 := { s.pulse1 with env := { s.pulse1.env with reg := data } } }

/-- `WR ENV1, data` (R103). -/
def execWrEnv1 (data : BitVec 8) (s : State) : Host.Outcome State Fault Refusal :=
  perform0 Config.params (setEnv1 data) s

/-- `PAN1 <- data` (R104). -/
def setPan1 (data : BitVec 2) (s : State) : State :=
  { s with pan := s.pan.set .pulse1 data }

/-- `WR PAN1, data` (R104). -/
def execWrPan1 (data : BitVec 2) (s : State) : Host.Outcome State Fault Refusal :=
  perform0 Config.params (setPan1 data) s

/-- `MIXEN1 <- data` (R105). -/
def setMixen1 (data : BitVec 1) (s : State) : State :=
  { s with mixen := s.mixen.set .pulse1 data }

/-- `WR MIXEN1, data` (R105). -/
def execWrMixen1 (data : BitVec 1) (s : State) : Host.Outcome State Fault Refusal :=
  perform0 Config.params (setMixen1 data) s

/-- `SWEEP <- data` (R106). -/
def setSweep (data : BitVec 7) (s : State) : State :=
  { s with sweep := { s.sweep with reg := data } }

/-- `WR SWEEP, data` (R106). -/
def execWrSweep (data : BitVec 7) (s : State) : Host.Outcome State Fault Refusal :=
  perform0 Config.params (setSweep data) s

/-- `FREQ2 <- data` (R107). -/
def setFreq2 (data : BitVec 11) (s : State) : State :=
  { s with pulse2 := { s.pulse2 with freq := data } }

/-- `WR FREQ2, data` (R107). -/
def execWrFreq2 (data : BitVec 11) (s : State) : Host.Outcome State Fault Refusal :=
  perform0 Config.params (setFreq2 data) s

/-- `DUTY2 <- data` (R108). -/
def setDuty2 (data : BitVec 2) (s : State) : State :=
  { s with pulse2 := { s.pulse2 with duty := data } }

/-- `WR DUTY2, data` (R108). -/
def execWrDuty2 (data : BitVec 2) (s : State) : Host.Outcome State Fault Refusal :=
  perform0 Config.params (setDuty2 data) s

/-- `ENV2 <- data` (R109). -/
def setEnv2 (data : BitVec 8) (s : State) : State :=
  { s with pulse2 := { s.pulse2 with env := { s.pulse2.env with reg := data } } }

/-- `WR ENV2, data` (R109). -/
def execWrEnv2 (data : BitVec 8) (s : State) : Host.Outcome State Fault Refusal :=
  perform0 Config.params (setEnv2 data) s

/-- `PAN2 <- data` (R110). -/
def setPan2 (data : BitVec 2) (s : State) : State :=
  { s with pan := s.pan.set .pulse2 data }

/-- `WR PAN2, data` (R110). -/
def execWrPan2 (data : BitVec 2) (s : State) : Host.Outcome State Fault Refusal :=
  perform0 Config.params (setPan2 data) s

/-- `MIXEN2 <- data` (R111). -/
def setMixen2 (data : BitVec 1) (s : State) : State :=
  { s with mixen := s.mixen.set .pulse2 data }

/-- `WR MIXEN2, data` (R111). -/
def execWrMixen2 (data : BitVec 1) (s : State) : Host.Outcome State Fault Refusal :=
  perform0 Config.params (setMixen2 data) s

/-- `FREQ3 <- data` (R112). -/
def setFreq3 (data : BitVec 11) (s : State) : State :=
  { s with wave := { s.wave with freq := data } }

/-- `WR FREQ3, data` (R112). -/
def execWrFreq3 (data : BitVec 11) (s : State) : Host.Outcome State Fault Refusal :=
  perform0 Config.params (setFreq3 data) s

/-- `WVOL <- data` (R113). -/
def setWvol (data : BitVec 2) (s : State) : State :=
  { s with wave := { s.wave with wvol := data } }

/-- `WR WVOL, data` (R113). -/
def execWrWvol (data : BitVec 2) (s : State) : Host.Outcome State Fault Refusal :=
  perform0 Config.params (setWvol data) s

/-- `PAN3 <- data` (R114). -/
def setPan3 (data : BitVec 2) (s : State) : State :=
  { s with pan := s.pan.set .wave data }

/-- `WR PAN3, data` (R114). -/
def execWrPan3 (data : BitVec 2) (s : State) : Host.Outcome State Fault Refusal :=
  perform0 Config.params (setPan3 data) s

/-- `MIXEN3 <- data` (R115). -/
def setMixen3 (data : BitVec 1) (s : State) : State :=
  { s with mixen := s.mixen.set .wave data }

/-- `WR MIXEN3, data` (R115). -/
def execWrMixen3 (data : BitVec 1) (s : State) : Host.Outcome State Fault Refusal :=
  perform0 Config.params (setMixen3 data) s

/-- `NCTRL <- data` (R116). -/
def setNctrl (data : BitVec 8) (s : State) : State :=
  { s with noise := { s.noise with nctrl := data } }

/-- `WR NCTRL, data` (R116). -/
def execWrNctrl (data : BitVec 8) (s : State) : Host.Outcome State Fault Refusal :=
  perform0 Config.params (setNctrl data) s

/-- `ENV4 <- data` (R117). -/
def setEnv4 (data : BitVec 8) (s : State) : State :=
  { s with noise := { s.noise with env := { s.noise.env with reg := data } } }

/-- `WR ENV4, data` (R117). -/
def execWrEnv4 (data : BitVec 8) (s : State) : Host.Outcome State Fault Refusal :=
  perform0 Config.params (setEnv4 data) s

/-- `PAN4 <- data` (R118). -/
def setPan4 (data : BitVec 2) (s : State) : State :=
  { s with pan := s.pan.set .noise data }

/-- `WR PAN4, data` (R118). -/
def execWrPan4 (data : BitVec 2) (s : State) : Host.Outcome State Fault Refusal :=
  perform0 Config.params (setPan4 data) s

/-- `MIXEN4 <- data` (R119). -/
def setMixen4 (data : BitVec 1) (s : State) : State :=
  { s with mixen := s.mixen.set .noise data }

/-- `WR MIXEN4, data` (R119). -/
def execWrMixen4 (data : BitVec 1) (s : State) : Host.Outcome State Fault Refusal :=
  perform0 Config.params (setMixen4 data) s

/-- `MVOL <- data`: left level, right level, bits 7 and 3 zero (R120). -/
def setMvol (left right : BitVec 3) (s : State) : State := { s with mvol := mvolByte left right }

/-- `WR MVOL, data` (R120). -/
def execWrMvol (left right : BitVec 3) (s : State) : Host.Outcome State Fault Refusal :=
  perform0 Config.params (setMvol left right) s

/-- `MemWrite(WAVERAM, i, data)` (R121). -/
def setWaveByte (i : BitVec 4) (data : BitVec 8) (s : State) : State :=
  { s with wave := { s.wave with ram := Memory.write s.wave.ram i.toNat data } }

/-- `WR WAVEi, data` (R121). -/
def execWrWave (i : BitVec 4) (data : BitVec 8) (s : State) : Host.Outcome State Fault Refusal :=
  perform0 Config.params (setWaveByte i data) s

end Sys2Proof.Machine
end

