-- ==== Sys2Proof/Machine/Dispatch.lean ====
section
/-! DEFINITION. exec: one arm per instruction, each one direct call of its meaning. -/

namespace Sys2Proof.Machine

def exec (i : Instr) (s : State) : Host.Outcome State Fault Refusal :=
  match i with
  | .wrFreq1 data => Sys2Proof.Machine.execWrFreq1 data s
  | .wrDuty1 data => Sys2Proof.Machine.execWrDuty1 data s
  | .wrEnv1 data => Sys2Proof.Machine.execWrEnv1 data s
  | .wrPan1 data => Sys2Proof.Machine.execWrPan1 data s
  | .wrMixen1 data => Sys2Proof.Machine.execWrMixen1 data s
  | .wrSweep data => Sys2Proof.Machine.execWrSweep data s
  | .wrFreq2 data => Sys2Proof.Machine.execWrFreq2 data s
  | .wrDuty2 data => Sys2Proof.Machine.execWrDuty2 data s
  | .wrEnv2 data => Sys2Proof.Machine.execWrEnv2 data s
  | .wrPan2 data => Sys2Proof.Machine.execWrPan2 data s
  | .wrMixen2 data => Sys2Proof.Machine.execWrMixen2 data s
  | .wrFreq3 data => Sys2Proof.Machine.execWrFreq3 data s
  | .wrWvol data => Sys2Proof.Machine.execWrWvol data s
  | .wrPan3 data => Sys2Proof.Machine.execWrPan3 data s
  | .wrMixen3 data => Sys2Proof.Machine.execWrMixen3 data s
  | .wrNctrl data => Sys2Proof.Machine.execWrNctrl data s
  | .wrEnv4 data => Sys2Proof.Machine.execWrEnv4 data s
  | .wrPan4 data => Sys2Proof.Machine.execWrPan4 data s
  | .wrMixen4 data => Sys2Proof.Machine.execWrMixen4 data s
  | .wrMvol left right => Sys2Proof.Machine.execWrMvol left right s
  | .wrWave k data => Sys2Proof.Machine.execWrWave k data s
  | .rdFreq1 => Sys2Proof.Machine.execRdFreq1 s
  | .rdDuty1 => Sys2Proof.Machine.execRdDuty1 s
  | .rdEnv1 => Sys2Proof.Machine.execRdEnv1 s
  | .rdPan1 => Sys2Proof.Machine.execRdPan1 s
  | .rdMixen1 => Sys2Proof.Machine.execRdMixen1 s
  | .rdSweep => Sys2Proof.Machine.execRdSweep s
  | .rdShadow => Sys2Proof.Machine.execRdShadow s
  | .rdOut1 => Sys2Proof.Machine.execRdOut1 s
  | .rdEvol1 => Sys2Proof.Machine.execRdEvol1 s
  | .rdFreq2 => Sys2Proof.Machine.execRdFreq2 s
  | .rdDuty2 => Sys2Proof.Machine.execRdDuty2 s
  | .rdEnv2 => Sys2Proof.Machine.execRdEnv2 s
  | .rdPan2 => Sys2Proof.Machine.execRdPan2 s
  | .rdMixen2 => Sys2Proof.Machine.execRdMixen2 s
  | .rdOut2 => Sys2Proof.Machine.execRdOut2 s
  | .rdEvol2 => Sys2Proof.Machine.execRdEvol2 s
  | .rdFreq3 => Sys2Proof.Machine.execRdFreq3 s
  | .rdWvol => Sys2Proof.Machine.execRdWvol s
  | .rdPan3 => Sys2Proof.Machine.execRdPan3 s
  | .rdMixen3 => Sys2Proof.Machine.execRdMixen3 s
  | .rdOut3 => Sys2Proof.Machine.execRdOut3 s
  | .rdNctrl => Sys2Proof.Machine.execRdNctrl s
  | .rdEnv4 => Sys2Proof.Machine.execRdEnv4 s
  | .rdPan4 => Sys2Proof.Machine.execRdPan4 s
  | .rdMixen4 => Sys2Proof.Machine.execRdMixen4 s
  | .rdLfsr => Sys2Proof.Machine.execRdLfsr s
  | .rdOut4 => Sys2Proof.Machine.execRdOut4 s
  | .rdEvol4 => Sys2Proof.Machine.execRdEvol4 s
  | .rdMvol => Sys2Proof.Machine.execRdMvol s
  | .rdStatus => Sys2Proof.Machine.execRdStatus s
  | .rdWave k => Sys2Proof.Machine.execRdWave k s
  | .rdpcm idx => Sys2Proof.Machine.execRdpcm idx s
  | .trig ch => Sys2Proof.Machine.execTrig ch s
  | .gstep ch cycles => Sys2Proof.Machine.execGstep ch cycles s
  | .etick0 => Sys2Proof.Machine.execEtick0 s
  | .etick1 => Sys2Proof.Machine.execEtick1 s
  | .etick3 => Sys2Proof.Machine.execEtick3 s
  | .stick => Sys2Proof.Machine.execStick s
  | .mix => Sys2Proof.Machine.execMix s
  | .run => Sys2Proof.Machine.execRun s
  | .reset => Sys2Proof.Machine.execReset s
  | .setfps imm => Sys2Proof.Machine.execSetfps imm s
  | .setrate imm => Sys2Proof.Machine.execSetrate imm s

end Sys2Proof.Machine
end

