-- ==== Sys2Proof/Machine/Port.lean ====
section
/-! DEFINITION. The command port: how a command word is taken and presented, and the fault of a word that is no
instruction (00_scope.md R7, R8; 60_exceptions.md R222). TBPSG has no program counter and fetches nothing
(10_state.md R54); the list `State.port` stands for the host (log entry 6). -/

namespace Sys2Proof.Machine

/-- The command word the host has issued and the state in which it is performed; none when the host is silent. -/
def takeCommand (s : State) : Option (Word × State) :=
  match s.port with
  | [] => none
  | w :: rest => some (w, { s with port := rest })

/-- The host issues `w` as the next command. -/
def State.present (w : Word) (s : State) : State := { s with port := w :: s.port }

/-- The cause of a word that is no instruction, with the word (R221, R222). -/
def decodeFault (e : DecodeError) (w : Word) : Fault :=
  match e with
  | .illegalOpcode => .illegalOpcode w
  | .illegalOperand => .illegalOperand w
  | .illegalAddress => .illegalAddress w

/-- The block when no command has been issued: nothing changes (00_scope.md R8; 60_exceptions.md R237; log entry 6). -/
def idle (s : State) : Host.Outcome State Fault Refusal := .next s

/-- The cause code of a fault (60_exceptions.md R222). -/
def Fault.code : Fault → Nat
  | .illegalOpcode _ => 1
  | .illegalOperand _ => 2
  | .illegalAddress _ => 3
  | .notConfigured _ => 4

/-- The faulting command word a fault records (60_exceptions.md R221). -/
def Fault.word : Fault → Word
  | .illegalOpcode w => w
  | .illegalOperand w => w
  | .illegalAddress w => w
  | .notConfigured w => w

end Sys2Proof.Machine
end

