-- ==== Sys2Proof/Machine/Step.lean ====
section
/-! DEFINITION. One step: the next command word is taken, decoded and performed to completion (00_scope.md R7, R8). -/

namespace Sys2Proof.Machine

/-- A command word performed: its instruction, or the fault of a word that is none (30_encoding.md R90). -/
def command (w : Word) (s : State) : Host.Outcome State Fault Refusal :=
  match decode w with
  | .instr i => exec i s
  | .bad e => raise Config.params (decodeFault e w) s

/-- One step of the machine. -/
def step (s : State) : Host.Outcome State Fault Refusal :=
  match takeCommand s with
  | none => idle s
  | some (w, t) => command w t

/-- The instruction word of `nbits` bits presented as the very next command; nothing else changes (log entry 8). -/
def State.withFetchWord (s : State) (nbits w : Nat) : State := s.present (BitVec.ofNat 32 (w % 2 ^ nbits))

end Sys2Proof.Machine
end

