-- ==== Sys2Proof/Machine/Assembler.lean ====
section
/-! DEFINITION. The three pseudo-instructions of 30_encoding.md R94 as lists of instructions. The text syntax of R93 is
for writing programs and reaches the block only as words (92_eei_decisions.md D35; log entry 17). -/

namespace Sys2Proof.Machine

/-- The channels `NOTE` takes: those with a frequency register (R94). -/
inductive ToneChannel where
  | pulse1
  | pulse2
  | wave
  deriving DecidableEq, Repr

/-- `LDWAVE`, `NOTE`, `MODTICK` (R94). -/
inductive Pseudo where
  | ldwave (bytes : Vector Byte 16)
  | note (ch : ToneChannel) (f : BitVec 11)
  | modtick
  deriving DecidableEq, Repr

/-- What a pseudo-instruction expands to, in order (R94). -/
def expand : Pseudo → List Instr
  | .ldwave bytes => List.ofFn fun i : Fin 16 => .wrWave (BitVec.ofNat 4 i.val) bytes[i]
  | .note .pulse1 f => [.wrFreq1 f, .trig .pulse1]
  | .note .pulse2 f => [.wrFreq2 f, .trig .pulse2]
  | .note .wave f => [.wrFreq3 f, .trig .wave]
  | .modtick => [.etick0, .etick1, .etick3, .stick]

/-- The command words of a pseudo-instruction. -/
def pseudoWords (q : Pseudo) : List Word := (expand q).map encode

end Sys2Proof.Machine
end

