-- ==== Sys2Proof/Machine/Session.lean ====
section
/-! DEFINITION. The host's view of a program (70_reset_and_hazards.md R255): a finite list of command words, each with
a response or a fault, and after a fault the next command performed in the unchanged state (60_exceptions.md R221,
R233). step itself ends at a fault (R225; log entry 1). -/

namespace Sys2Proof.Machine

/-- What the host gets for one command (00_scope.md R13). -/
inductive Reply where
  | ok (response : Word)
  | fault (f : Fault)
  | refused (r : Refusal)
  deriving DecidableEq, Repr

/-- One command issued by the host: the state after it and the reply. A fault leaves the state as it was (R221). -/
def issue (w : Word) (s : State) : State × Reply :=
  match command w s with
  | .next t => (t, .ok (t.responses.getLast?.getD 0))
  | .fault f => (s, .fault f)
  | .refused r => (s, .refused r)

/-- A program: the commands in the order the host issues them (20_memory.md R68, 70_reset_and_hazards.md R255). -/
def session : List Word → State → State × List Reply
  | [], s => (s, [])
  | w :: rest, s =>
    let r := issue w s
    let q := session rest r.1
    (q.1, r.2 :: q.2)

end Sys2Proof.Machine
end

