-- ==== Sys2Proof/Safety.lean ====
section
/-! DEFINITION. The vocabulary of claims: the items of the state one by one, frames over them, the invariant of
10_state.md R49, legal parameters (00_scope.md R9), and the shapes in which write and read commands are claimed. -/

namespace Sys2Proof

/-- The `match` and `mask` of a row of opcode_table.json (30_encoding.md R91). -/
structure Row where
  pattern : Word
  mask : Word
  deriving DecidableEq, Repr

/-- A word is a legal spelling of the row (R91); `SETFPS` and `SETRATE` also require a non-zero immediate. -/
abbrev Row.Matches (r : Row) (w : Word) : Prop := w &&& r.mask = r.pattern

/-- The row of an instruction, as the opcode table has it. -/
def Instr.row (i : Instr) : Row :=
  match i with
  | .wrFreq1 _ => ⟨0x01000000, 0xFFFFF800⟩
  | .wrDuty1 _ => ⟨0x01010000, 0xFFFFFFFC⟩
  | .wrEnv1 _ => ⟨0x01020000, 0xFFFFFF00⟩
  | .wrPan1 _ => ⟨0x01030000, 0xFFFFFFFC⟩
  | .wrMixen1 _ => ⟨0x01040000, 0xFFFFFFFE⟩
  | .wrSweep _ => ⟨0x01050000, 0xFFFFFF80⟩
  | .wrFreq2 _ => ⟨0x01100000, 0xFFFFF800⟩
  | .wrDuty2 _ => ⟨0x01110000, 0xFFFFFFFC⟩
  | .wrEnv2 _ => ⟨0x01120000, 0xFFFFFF00⟩
  | .wrPan2 _ => ⟨0x01130000, 0xFFFFFFFC⟩
  | .wrMixen2 _ => ⟨0x01140000, 0xFFFFFFFE⟩
  | .wrFreq3 _ => ⟨0x01200000, 0xFFFFF800⟩
  | .wrWvol _ => ⟨0x01210000, 0xFFFFFFFC⟩
  | .wrPan3 _ => ⟨0x01230000, 0xFFFFFFFC⟩
  | .wrMixen3 _ => ⟨0x01240000, 0xFFFFFFFE⟩
  | .wrNctrl _ => ⟨0x01300000, 0xFFFFFF00⟩
  | .wrEnv4 _ => ⟨0x01320000, 0xFFFFFF00⟩
  | .wrPan4 _ => ⟨0x01330000, 0xFFFFFFFC⟩
  | .wrMixen4 _ => ⟨0x01340000, 0xFFFFFFFE⟩
  | .wrMvol _ _ => ⟨0x01400000, 0xFFFFFF88⟩
  | .wrWave _ _ => ⟨0x01800000, 0xFFF0FF00⟩
  | .rdFreq1 => ⟨0x02000000, 0xFFFFFFFF⟩
  | .rdDuty1 => ⟨0x02010000, 0xFFFFFFFF⟩
  | .rdEnv1 => ⟨0x02020000, 0xFFFFFFFF⟩
  | .rdPan1 => ⟨0x02030000, 0xFFFFFFFF⟩
  | .rdMixen1 => ⟨0x02040000, 0xFFFFFFFF⟩
  | .rdSweep => ⟨0x02050000, 0xFFFFFFFF⟩
  | .rdShadow => ⟨0x02060000, 0xFFFFFFFF⟩
  | .rdOut1 => ⟨0x02070000, 0xFFFFFFFF⟩
  | .rdEvol1 => ⟨0x02080000, 0xFFFFFFFF⟩
  | .rdFreq2 => ⟨0x02100000, 0xFFFFFFFF⟩
  | .rdDuty2 => ⟨0x02110000, 0xFFFFFFFF⟩
  | .rdEnv2 => ⟨0x02120000, 0xFFFFFFFF⟩
  | .rdPan2 => ⟨0x02130000, 0xFFFFFFFF⟩
  | .rdMixen2 => ⟨0x02140000, 0xFFFFFFFF⟩
  | .rdOut2 => ⟨0x02170000, 0xFFFFFFFF⟩
  | .rdEvol2 => ⟨0x02180000, 0xFFFFFFFF⟩
  | .rdFreq3 => ⟨0x02200000, 0xFFFFFFFF⟩
  | .rdWvol => ⟨0x02210000, 0xFFFFFFFF⟩
  | .rdPan3 => ⟨0x02230000, 0xFFFFFFFF⟩
  | .rdMixen3 => ⟨0x02240000, 0xFFFFFFFF⟩
  | .rdOut3 => ⟨0x02270000, 0xFFFFFFFF⟩
  | .rdNctrl => ⟨0x02300000, 0xFFFFFFFF⟩
  | .rdEnv4 => ⟨0x02320000, 0xFFFFFFFF⟩
  | .rdPan4 => ⟨0x02330000, 0xFFFFFFFF⟩
  | .rdMixen4 => ⟨0x02340000, 0xFFFFFFFF⟩
  | .rdLfsr => ⟨0x02360000, 0xFFFFFFFF⟩
  | .rdOut4 => ⟨0x02370000, 0xFFFFFFFF⟩
  | .rdEvol4 => ⟨0x02380000, 0xFFFFFFFF⟩
  | .rdMvol => ⟨0x02400000, 0xFFFFFFFF⟩
  | .rdStatus => ⟨0x02410000, 0xFFFFFFFF⟩
  | .rdWave _ => ⟨0x02800000, 0xFFF0FFFF⟩
  | .rdpcm _ => ⟨0x03000000, 0xFF000000⟩
  | .trig _ => ⟨0x10000000, 0xFFFCFFFF⟩
  | .gstep _ _ => ⟨0x11000000, 0xFFFC0000⟩
  | .etick0 => ⟨0x12000000, 0xFFFFFFFF⟩
  | .etick1 => ⟨0x12010000, 0xFFFFFFFF⟩
  | .etick3 => ⟨0x12030000, 0xFFFFFFFF⟩
  | .stick => ⟨0x13000000, 0xFFFFFFFF⟩
  | .mix => ⟨0x20000000, 0xFFFFFFFF⟩
  | .run => ⟨0x30000000, 0xFFFFFFFF⟩
  | .reset => ⟨0x31000000, 0xFFFFFFFF⟩
  | .setfps _ => ⟨0x32000000, 0xFF000000⟩
  | .setrate _ => ⟨0x33000000, 0xFF000000⟩

end Sys2Proof

namespace Sys2Proof.Machine

/-- Every item of the state tuple of 10_state.md R20, by the spec's names. -/
inductive Item where
  | freq1 | freq2 | freq3 | duty1 | duty2 | wvol | nctrl | env1 | env2 | env4 | sweep
  | pan (ch : Channel) | mixen (ch : Channel) | mvol
  | waveByte (i : Fin 16)
  | fps | rate
  | gcnt (ch : Channel) | drift (ch : Channel)
  | dpos1 | dpos2 | widx | lfsr
  | evol1 | evol2 | evol4 | ecnt1 | ecnt2 | ecnt4
  | shadow | scnt | chen (ch : Channel)
  | pending | ccarry | scarry | pcmCap | pcm
  deriving DecidableEq, Repr

/-- The value of an item. -/
inductive Value where
  | num (n : Nat)
  | frac (q : Rat)
  | flag (b : Bool)
  | frame (f : List Sample)
  deriving DecidableEq, Repr

/-- The generator timer of a channel. -/
def State.timer (s : State) : Channel → Timer
  | .pulse1 => s.pulse1.timer
  | .pulse2 => s.pulse2.timer
  | .wave => s.wave.timer
  | .noise => s.noise.timer

/-- What an item holds; a byte of the wave RAM is read as the generator reads it. -/
def item (s : State) : Item → Value
  | .freq1 => .num s.pulse1.freq.toNat
  | .freq2 => .num s.pulse2.freq.toNat
  | .freq3 => .num s.wave.freq.toNat
  | .duty1 => .num s.pulse1.duty.toNat
  | .duty2 => .num s.pulse2.duty.toNat
  | .wvol => .num s.wave.wvol.toNat
  | .nctrl => .num s.noise.nctrl.toNat
  | .env1 => .num s.pulse1.env.reg.toNat
  | .env2 => .num s.pulse2.env.reg.toNat
  | .env4 => .num s.noise.env.reg.toNat
  | .sweep => .num s.sweep.reg.toNat
  | .pan ch => .num (s.pan.get ch).toNat
  | .mixen ch => .num (s.mixen.get ch).toNat
  | .mvol => .num s.mvol.toNat
  | .waveByte i => .num (Memory.read s.wave.ram i.val).toNat
  | .fps => .num s.fps.toNat
  | .rate => .num s.rate.toNat
  | .gcnt ch => .num (s.timer ch).gcnt
  | .drift ch => .frac (s.timer ch).drift
  | .dpos1 => .num s.pulse1.dpos.toNat
  | .dpos2 => .num s.pulse2.dpos.toNat
  | .widx => .num s.wave.widx.toNat
  | .lfsr => .num s.noise.lfsr.toNat
  | .evol1 => .num s.pulse1.env.evol.toNat
  | .evol2 => .num s.pulse2.env.evol.toNat
  | .evol4 => .num s.noise.env.evol.toNat
  | .ecnt1 => .num s.pulse1.env.ecnt
  | .ecnt2 => .num s.pulse2.env.ecnt
  | .ecnt4 => .num s.noise.env.ecnt
  | .shadow => .num s.sweep.shadow.toNat
  | .scnt => .num s.sweep.scnt
  | .chen ch => .flag (s.chen.get ch)
  | .pending => .flag s.pending
  | .ccarry => .frac s.ccarry
  | .scarry => .frac s.scarry
  | .pcmCap => .num s.pcmCap
  | .pcm => .frame s.pcm

/-- The programmable registers of R21 to R29 and the bytes of the wave RAM. -/
def Item.programmable : Item → Bool
  | .freq1 | .freq2 | .freq3 | .duty1 | .duty2 | .wvol | .nctrl | .env1 | .env2 | .env4 | .sweep | .pan _ | .mixen _
  | .mvol | .waveByte _ => true
  | _ => false

/-- Every item but those listed holds in `t` what it holds in `s`. -/
def Frame (changed : List Item) (s t : State) : Prop := ∀ x, x ∉ changed → item t x = item s x

/-- From `s` to `t` the block has given exactly the response `r` and taken no further command (30_encoding.md R92). -/
def Answered (s t : State) (r : Word) : Prop := t.responses = s.responses ++ [r] ∧ t.port = s.port

/-- The state after the pending resize-and-reset, if one is due (43_mixer_synth.md R196). -/
abbrev used (s : State) : State := use Config.params s

/-- `WR addr` of a register of `n` bits that `x` names: over-wide data is an illegal operand, other data makes the
instruction `mk`, and that instruction completes with response 0, the register at the data and nothing else changed
(40_register_access.md R100). -/
def WriteCommand {n : Nat} (addr : BitVec 8) (mk : BitVec n → Instr) (x : Item) : Prop :=
  (∀ data : BitVec 16, 2 ^ n ≤ data.toNat → decode (wordOf 0x01#8 addr data) = .bad .illegalOperand) ∧
  (∀ d : BitVec n, decode (wordOf 0x01#8 addr (d.setWidth 16)) = .instr (mk d)) ∧
  ∀ (d : BitVec n) (s : State), ∃ t, exec (mk d) s = .next t ∧ Answered s t 0 ∧
    item t x = .num d.toNat ∧ Frame [x] (used s) t

/-- `RD addr` that answers `value`: a non-zero reserved half is an illegal operand, else the word makes the instruction
`i`, which completes with the response `value` of the used state and changes nothing further
(40_register_access.md R122). -/
def ReadCommand (addr : BitVec 8) (i : Instr) (value : State → Nat) : Prop :=
  (∀ r : BitVec 16, r ≠ 0 → decode (wordOf 0x02#8 addr r) = .bad .illegalOperand) ∧
  decode (wordOf 0x02#8 addr 0#16) = .instr i ∧
  ∀ s : State, ∃ t, exec i s = .next t ∧ Answered s t (BitVec.ofNat 32 (value (used s))) ∧ Frame [] (used s) t

/-- `OUT[ch]` by the arithmetic of 41_generators.md R148 to R151, with the default `DUTY_MASK`. -/
def outFormula (u : State) : Channel → Nat
  | .pulse1 =>
    if u.chen.pulse1 = true ∧ 0x7EE18180 / 2 ^ (u.pulse1.duty.toNat * 8 + u.pulse1.dpos.toNat) % 2 = 1 then
      u.pulse1.env.evol.toNat else 0
  | .pulse2 =>
    if u.chen.pulse2 = true ∧ 0x7EE18180 / 2 ^ (u.pulse2.duty.toNat * 8 + u.pulse2.dpos.toNat) % 2 = 1 then
      u.pulse2.env.evol.toNat else 0
  | .wave =>
    let byte := (Memory.read u.wave.ram (u.wave.widx.toNat / 2)).toNat
    let nibble := if u.wave.widx.toNat % 2 = 0 then byte / 16 else byte % 16
    if u.chen.wave = true then
      if u.wave.wvol = 0 then 0 else if u.wave.wvol = 1 then nibble else if u.wave.wvol = 2 then nibble / 2 else nibble / 4
    else 0
  | .noise => if u.chen.noise = true ∧ u.noise.lfsr.toNat % 2 = 0 then u.noise.env.evol.toNat else 0

/-- `acc` of the side whose panning bit has the weight `bit` (2 left, 1 right), with the default `volTable`
(43_mixer_synth.md R190). -/
def accFormula (bit : Nat) (u : State) : Nat :=
  let part (ch : Channel) : Nat :=
    if (u.mixen.get ch).toNat = 1 ∧ (u.pan.get ch).toNat / bit % 2 = 1 then outFormula u ch else 0
  part .pulse1 + part .pulse2 + part .wave + part .noise

/-- `CLOCK_HZ * 256 / FPS` with the default clock (43_mixer_synth.md R198). -/
def cpfFormula (s : State) : Rat := (4194304 * 256 : Rat) / (s.fps.toNat : Rat)

/-- `RATE * 256 / FPS` (43_mixer_synth.md R199). -/
def spfFormula (s : State) : Rat := ((s.rate.toNat : Rat) * 256) / (s.fps.toNat : Rat)

/-- The noise period with the default `drfTable` (41_generators.md R142). -/
def noisePeriodFormula (nctrl : Nat) : Nat := [8, 16, 32, 48, 64, 80, 96, 112].getD (nctrl % 8) 0 * 2 ^ (nctrl / 16 + 1)

/-- A carry in [0, 1) (10_state.md R34, R44, R45). -/
def IsCarry (q : Rat) : Prop := 0 ≤ q ∧ q < 1

/-- R49, as far as the field types do not say it already, and the facts it rests on: the carries are in [0, 1), the
reserved bits of `MVOL` are 0, the wave RAM is canonical, a pending reset has an empty frame, the frame fits the
buffer, and a configured block that owes no reset has the buffer R196 sized. -/
structure Invariant (s : State) : Prop where
  drift : ∀ ch, IsCarry (s.timer ch).drift
  ccarry : IsCarry s.ccarry
  scarry : IsCarry s.scarry
  mvol : s.mvol.getLsbD 7 = false ∧ s.mvol.getLsbD 3 = false
  ram : Memory.wf s.wave.ram = true
  pending : s.pending = true → s.pcm = []
  fits : s.pcmLen ≤ s.pcmCap
  sized : s.pending = false → s.configured = true → s.pcmCap = frameCapacity s

/-- The number of set bits of byte `d` of a duty mask. -/
def dutyOnes (mask : BitVec 32) (d : Nat) : Nat := ((List.range 8).filter fun k => mask.getLsbD (8 * d + k)).length

/-- What 43_mixer_synth.md R206 asks of a resampling kernel: N samples, and after the frame the state that one step by W
gives. A kernel may rely on amounts adding up, in the states where they do (`inv`). -/
def LegalKernel (k : ResampleKernel) : Prop :=
  ∀ (σ : Type) (step : Rat → σ → σ) (look : σ → Sample) (inv : σ → Prop) (w n : Nat) (s : σ),
    (∀ c u, 0 ≤ c → inv u → inv (step c u)) →
    (∀ c d u, 0 ≤ c → 0 ≤ d → inv u → step d (step c u) = step (c + d) u) → inv s →
    (k σ step look w n s).1.length = n ∧ (k σ step look w n s).2 = step (w : Rat) s

/-- The constraints of 00_scope.md R9 on the parameters, with R14's (`MAX_FREQ` and the reset frequencies fit the
register), R206's on the kernel, R29's (reserved bits of `MVOL`) and the canonical wave RAM. -/
structure LegalParams (p : Config.Params) : Prop where
  clock : 0 < p.clockHz
  freqBits : p.freqBits ≤ 11
  maxFreq : p.maxFreq < 2 ^ p.freqBits
  duty : dutyOnes p.dutyMask 0 = 1 ∧ dutyOnes p.dutyMask 1 = 2 ∧ dutyOnes p.dutyMask 2 = 4 ∧ dutyOnes p.dutyMask 3 = 6
  drf : ∀ i : Fin 8, 0 < p.drfTable[i]
  volZero : p.volTable[0] = 0
  volMono : ∀ i j : Fin 16, i ≤ j → p.volTable[i] ≤ p.volTable[j]
  volFits : p.volTable[15] * 4 * 8 * p.pcmScale ≤ 32767
  envScale : 0 < p.envPeriodScale
  sweepScale : 0 < p.sweepPeriodScale
  pcmScale : 0 < p.pcmScale
  kernel : LegalKernel p.resampleKernel
  resetFreq : p.resetValues.freq1.toNat < 2 ^ p.freqBits ∧ p.resetValues.freq2.toNat < 2 ^ p.freqBits ∧
    p.resetValues.freq3.toNat < 2 ^ p.freqBits
  mvol : p.resetValues.mvol.getLsbD 7 = false ∧ p.resetValues.mvol.getLsbD 3 = false
  ram : Memory.wf p.resetValues.waveRam = true

/-- The instructions that are a "use" when they do not fault (43_mixer_synth.md R196). -/
def isUse : Instr → Bool
  | .setfps _ | .setrate _ | .rdpcm _ => false
  | _ => true

/-- The state an instruction works on after its fault checks: the used one if it is a use (R196). -/
def entered (i : Instr) (s : State) : State := if isUse i then used s else s

/-- A list of instructions performed one after another; the first fault or refusal ends it. -/
def execAll : List Instr → State → Host.Outcome State Fault Refusal
  | [], s => .next s
  | i :: rest, s =>
    match exec i s with
    | .next t => execAll rest t
    | .fault f => .fault f
    | .refused r => .refused r

/-- No command of the session faults: a program's run as 70_reset_and_hazards.md R255 has it, with a response for
every command. -/
def SafeSession (ws : List Word) (s : State) : Prop := ∀ r ∈ (session ws s).2, ∃ v, r = .ok v

end Sys2Proof.Machine
end

