-- ==== Sys2Proof/Certificates/Slice0/Obligations.lean ====
section
/-! DEFINITION. The statements for the provers. Each docstring names the rules of spec/ it formalises. `used s` is the
state after the pending resize-and-reset, which UseResizesAndResets pins down; a frame lists every item that may
change. -/

open Sys2Proof Sys2Proof.Machine

/-- R240, R50 at the default `LFSR_INIT` and reset values (log entry 4): the power-on values. -/
def Obligations.ResetGivesPowerOnValues : Prop :=
  ∀ x, item State.reset x =
    match x with
    | .lfsr => .num 0x7FFF
    | .pending => .flag true
    | .chen _ => .flag false
    | .drift _ | .ccarry | .scarry => .frac 0
    | .pcm => .frame []
    | _ => .num 0

/-- R49 at power-on (the canonical wave RAM is the model's form, log entry 11). -/
def Obligations.InvariantAtReset : Prop := Invariant State.reset

/-- R49: every step from a state with the invariant keeps it (the canonical wave RAM is the model's form, log
entry 11). -/
def Obligations.StepKeepsInvariant : Prop := ∀ s t, Invariant s → step s = .next t → Invariant t

/-- R9: the default parameters, with which the model runs (log entry 4), meet the constraints the spec puts on them. -/
def Obligations.DefaultParametersAreLegal : Prop := LegalParams Config.params

/-- R80 to R86: the decoder gives back every instruction from its word, with every operand. -/
def Obligations.DecodeOfEncode : Prop := ∀ i, decode (encode i) = .instr i

/-- R80 to R86: a word that decodes is the word of its instruction: no bit of it is dropped. -/
def Obligations.EncodeOfDecode : Prop := ∀ w i, decode w = .instr i → encode i = w

/-- R91: a word decodes to an instruction of a row exactly when the row's match and mask say so; for `SETFPS` and
`SETRATE` words with a zero immediate the meaning raises the fault (log entry 13). -/
def Obligations.DecoderFollowsOpcodeTable : Prop :=
  ∀ w, (∀ i, decode w = .instr i → i.row.Matches w) ∧
    ∀ j : Instr, j.row.Matches w → ∃ i, decode w = .instr i ∧ i.row = j.row

/-- R89: exactly the words whose opcode is none of the twelve are illegal opcodes, and such a command faults so. -/
def Obligations.ReservedOpcodesFault : Prop :=
  (∀ w : Word, decode w = .bad .illegalOpcode ↔
    w.toNat / 2 ^ 24 ∉ [0x01, 0x02, 0x03, 0x10, 0x11, 0x12, 0x13, 0x20, 0x30, 0x31, 0x32, 0x33]) ∧
  ∀ (w : Word) (s : State), decode w = .bad .illegalOpcode → step (s.present w) = .fault (.illegalOpcode w)

/-- R61, R90: which addresses `WR` and `RD` reach; at any other the command faults with IllegalAddress, whatever its
data, and `RD` checks its reserved half first. -/
def Obligations.AddressMapIsTheSpecs : Prop :=
  (∀ (a : BitVec 8) (d : BitVec 16), decode (wordOf 0x01#8 a d) = .bad .illegalAddress ↔
    a.toNat ∉ [0x00, 0x01, 0x02, 0x03, 0x04, 0x05, 0x10, 0x11, 0x12, 0x13, 0x14, 0x20, 0x21, 0x23, 0x24, 0x30, 0x32,
      0x33, 0x34, 0x40] ∧ a.toNat / 16 ≠ 8) ∧
  ∀ (a : BitVec 8) (d : BitVec 16), decode (wordOf 0x02#8 a d) = .bad .illegalAddress ↔
    d = 0 ∧ a.toNat ∉ [0x00, 0x01, 0x02, 0x03, 0x04, 0x05, 0x06, 0x07, 0x08, 0x10, 0x11, 0x12, 0x13, 0x14, 0x17, 0x18,
      0x20, 0x21, 0x23, 0x24, 0x27, 0x30, 0x32, 0x33, 0x34, 0x36, 0x37, 0x38, 0x40, 0x41] ∧ a.toNat / 16 ≠ 8

/-- R83, R85, R88: the format fields of the channel and no-operand commands: what is legal and what faults. -/
def Obligations.FormatFieldsAreChecked : Prop :=
  (∀ (c : BitVec 8) (a : BitVec 16), decode (wordOf 0x10#8 c a) = .bad .illegalOperand ↔ 3 < c.toNat ∨ a ≠ 0) ∧
  (∀ (c : BitVec 8) (a : BitVec 16), decode (wordOf 0x11#8 c a) = .bad .illegalOperand ↔ 3 < c.toNat) ∧
  (∀ (c : BitVec 8) (a : BitVec 16), decode (wordOf 0x12#8 c a) = .bad .illegalOperand ↔
    3 < c.toNat ∨ c.toNat = 2 ∨ a ≠ 0) ∧
  (∀ z : BitVec 24, decode (immWordOf 0x13#8 z) = .bad .illegalOperand ↔ z ≠ 0) ∧
  (∀ z : BitVec 24, decode (immWordOf 0x20#8 z) = .bad .illegalOperand ↔ z ≠ 0) ∧
  (∀ z : BitVec 24, decode (immWordOf 0x30#8 z) = .bad .illegalOperand ↔ z ≠ 0) ∧
  (∀ z : BitVec 24, decode (immWordOf 0x31#8 z) = .bad .illegalOperand ↔ z ≠ 0) ∧
  (∀ r a, decode (wordOf 0x02#8 a r) = .bad .illegalOperand ↔ r ≠ 0)

/-- R93: words written out in the spec decode to the commands they stand for. -/
def Obligations.ExampleWordsDecode : Prop :=
  decode 0x010006D6 = .instr (.wrFreq1 1750) ∧ decode 0x01400077 = .instr (.wrMvol 7 7) ∧
  decode 0x01830067 = .instr (.wrWave 3 0x67) ∧ decode 0x02410000 = .instr .rdStatus ∧
  decode 0x10030000 = .instr (.trig .noise) ∧ decode 0x11000040 = .instr (.gstep .pulse1 64) ∧
  decode 0x12010000 = .instr .etick1 ∧ decode 0x13000000 = .instr .stick ∧ decode 0x20000000 = .instr .mix ∧
  decode 0x30000000 = .instr .run ∧ decode 0x31000000 = .instr .reset ∧ decode 0x32003C00 = .instr (.setfps 15360) ∧
  decode 0x3300AC44 = .instr (.setrate 44100) ∧ decode 0x03000005 = .instr (.rdpcm 5)

/-- R7, R8 (log entry 6 for the port): a step takes the next command word off the port and runs the decoded
instruction; a word that is none faults with its cause and the word; with no command issued nothing changes. -/
def Obligations.StepRunsTheDecodedInstruction : Prop :=
  (∀ (s : State) (w : Word) (rest : List Word) (i : Instr), s.port = w :: rest → decode w = .instr i →
    step s = exec i { s with port := rest }) ∧
  (∀ (s : State) (w : Word) (rest : List Word) (e : DecodeError), s.port = w :: rest → decode w = .bad e →
    step s = .fault (decodeFault e w)) ∧
  ∀ s : State, s.port = [] → step s = .next s

/-- R196, R50 at the default `LFSR_INIT` 0x7FFF and reset values 0 of R37 (log entry 4): `use()`; that every command
but `SETFPS`, `SETRATE` and `RDPCM` performs it first once its fault checks pass (only `RUN` has one left after
decoding); and that those three do not. -/
def Obligations.UseResizesAndResets : Prop :=
  (∀ s : State, s.pending = false → used s = s) ∧
  (∀ s : State, s.pending = true → (used s).port = s.port ∧ (used s).responses = s.responses ∧
    ∀ x, item (used s) x =
      match x with
      | .fps => item s .fps
      | .rate => item s .rate
      | .pcmCap => .num (if s.fps.toNat ≠ 0 ∧ s.rate.toNat ≠ 0 then s.rate.toNat * 256 / s.fps.toNat + 1 else s.pcmCap)
      | .pending => .flag false
      | .lfsr => .num 0x7FFF
      | .chen _ => .flag false
      | .drift _ | .ccarry | .scarry => .frac 0
      | .pcm => .frame []
      | _ => .num 0) ∧
  (∀ (i : Instr) (s : State), isUse i = true → (i = .run → s.configured = true) → exec i s = exec i (used s)) ∧
  ∀ (i : Instr) (s t : State), isUse i = false → exec i s = .next t → s.pending = true →
    t.pending = true ∧ t.pcmCap = s.pcmCap ∧ ∀ x, x.programmable = true → item t x = item s x

/-- R30, R31, R51, R254: `FPS` changes only at `SETFPS`, `RATE` only at `SETRATE`, and the buffer capacity only in a
resize-and-reset. -/
def Obligations.RatesAndCapacityHaveTheirWriters : Prop :=
  ∀ (i : Instr) (s t : State), exec i s = .next t →
    (t.fps = s.fps ∨ i = .setfps t.fps) ∧ (t.rate = s.rate ∨ i = .setrate t.rate) ∧
    (t.pcmCap = s.pcmCap ∨ (isUse i = true ∧ s.pending = true ∧ s.fps ≠ 0 ∧ s.rate ≠ 0 ∧
      t.pcmCap = s.rate.toNat * 256 / s.fps.toNat + 1))

/-- R53, R65, R209: after the pending reset, a programmable register or wave RAM byte changes only at the `WR` that
names it or at `RESET`, and `FREQ[0]` also at a sweep tick of `STICK` or `RUN`. -/
def Obligations.ProgrammableRegistersHaveOneWriter : Prop :=
  ∀ (i : Instr) (s t : State) (x : Item), exec i s = .next t → x.programmable = true →
    item t x ≠ item (entered i s) x →
    i = .reset ∨ (x = .freq1 ∧ (i = .stick ∨ i = .run)) ∨
    match x with
    | .freq1 => ∃ d, i = .wrFreq1 d
    | .freq2 => ∃ d, i = .wrFreq2 d
    | .freq3 => ∃ d, i = .wrFreq3 d
    | .duty1 => ∃ d, i = .wrDuty1 d
    | .duty2 => ∃ d, i = .wrDuty2 d
    | .wvol => ∃ d, i = .wrWvol d
    | .nctrl => ∃ d, i = .wrNctrl d
    | .env1 => ∃ d, i = .wrEnv1 d
    | .env2 => ∃ d, i = .wrEnv2 d
    | .env4 => ∃ d, i = .wrEnv4 d
    | .sweep => ∃ d, i = .wrSweep d
    | .pan .pulse1 => ∃ d, i = .wrPan1 d
    | .pan .pulse2 => ∃ d, i = .wrPan2 d
    | .pan .wave => ∃ d, i = .wrPan3 d
    | .pan .noise => ∃ d, i = .wrPan4 d
    | .mixen .pulse1 => ∃ d, i = .wrMixen1 d
    | .mixen .pulse2 => ∃ d, i = .wrMixen2 d
    | .mixen .wave => ∃ d, i = .wrMixen3 d
    | .mixen .noise => ∃ d, i = .wrMixen4 d
    | .mvol => ∃ l r, i = .wrMvol l r
    | .waveByte k => ∃ d, i = .wrWave (BitVec.ofNat 4 k.val) d
    | _ => False

/-- R55: who sets and who clears the two kinds of flag. -/
def Obligations.FlagsHaveTheirWriters : Prop :=
  ∀ (i : Instr) (s t : State), exec i s = .next t →
    (∀ ch, t.chen.get ch = true → (entered i s).chen.get ch = true ∨ i = .trig ch) ∧
    (∀ ch, t.chen.get ch = false → (entered i s).chen.get ch = false ∨ i = .reset ∨
      (ch = .pulse1 ∧ (i = .stick ∨ i = .run))) ∧
    (t.pending = true ↔ (s.pending = true ∧ ∃ k, i = .rdpcm k) ∨ (∃ v, i = .setfps v) ∨ ∃ v, i = .setrate v)

/-- R92, R13: a command that does not fault gives exactly one response (the list of responses is the model's, log
entry 7), 0 for the commands that answer 0. -/
def Obligations.EveryCommandAnswersOnce : Prop :=
  ∀ (i : Instr) (s t : State), exec i s = .next t → ∃ r, Answered s t r ∧
    (encode i = 0x13000000 ∨ encode i = 0x31000000 ∨
      (opcodeField (encode i)).toNat ∈ [0x01, 0x10, 0x11, 0x12, 0x32, 0x33] → r = 0)

/-- R13, R222, at the default policy (log entry 2): which instructions fault, when, and with what; and none is
refused. -/
def Obligations.FaultsAreExactlyTheSpecs : Prop :=
  ∀ (i : Instr) (s : State), (∀ r, exec i s ≠ .refused r) ∧
    ∀ f, exec i s = .fault f ↔
      (∃ k, i = .rdpcm k ∧ 2 * s.pcmLen ≤ k.toNat ∧ f = .illegalAddress (BitVec.ofNat 32 (0x03000000 + k.toNat))) ∨
      (i = .run ∧ (s.fps = 0 ∨ s.rate = 0) ∧ f = .notConfigured 0x30000000) ∨
      (i = .setfps 0 ∧ f = .illegalOperand 0x32000000) ∨ (i = .setrate 0 ∧ f = .illegalOperand 0x33000000)

/-- R221, R222: a fault records the word of the command that raised it and one of the four cause codes, and a step is
never refused. -/
def Obligations.FaultsRecordTheCommandWord : Prop :=
  ∀ s : State, (∀ r, step s ≠ .refused r) ∧
    ∀ f, step s = .fault f → s.port.head? = some f.word ∧ f.code ∈ [1, 2, 3, 4]

/-- R221, R233: after a fault the state is as before, and the next command is performed in it; in the host's view of a
program, since the model's own run ends at a fault (log entry 1). -/
def Obligations.FaultLeavesTheStateAndTheNextRuns : Prop :=
  ∀ (w : Word) (ws : List Word) (s : State) (f : Fault), command w s = .fault f →
    (issue w s).1 = s ∧ session (w :: ws) s = ((session ws s).1, .fault f :: (session ws s).2)

/-- R228: under the policy `ignore` a command that cannot be performed answers 0 and changes nothing; R220: under the
default policy, with which the model runs (log entry 2), it faults. -/
def Obligations.IllegalPolicyIsFollowed : Prop :=
  ∀ (p : Config.Params) (f : Fault) (s : State),
    (p.illegalPolicy = .ignore → ∃ t, raise p f s = .next t ∧ Answered s t 0 ∧ Frame [] s t) ∧
    (p.illegalPolicy = .fault → raise p f s = .fault f)

/-- The items are the whole of the block's state (10_state.md R20): states with canonical wave RAMs that agree on every
item, on the port and on the responses are equal (the form of the wave RAM and the two lists are the model's, log
entries 6, 7 and 11). -/
def Obligations.ItemsDetermineTheState : Prop :=
  ∀ s t : State, Memory.wf s.wave.ram = true → Memory.wf t.wave.ram = true → (∀ x, item s x = item t x) →
    s.port = t.port → s.responses = t.responses → s = t

/-- R101, R107, R112: the frequency registers, and the periods they give; 11 bits, the default `FREQ_BITS` (log entries
3, 4), are the width these rules write out. -/
def Obligations.WritesOfFrequencies : Prop :=
  WriteCommand 0x00 .wrFreq1 .freq1 ∧ WriteCommand 0x10 .wrFreq2 .freq2 ∧ WriteCommand 0x20 .wrFreq3 .freq3 ∧
  (∀ g : Pulse, g.period = (2048 - g.freq.toNat) * 4) ∧ ∀ g : Wave, g.period = (2048 - g.freq.toNat) * 2

/-- R102, R108, R113: the duty and wave volume registers. -/
def Obligations.WritesOfTimbres : Prop :=
  WriteCommand 0x01 .wrDuty1 .duty1 ∧ WriteCommand 0x11 .wrDuty2 .duty2 ∧ WriteCommand 0x21 .wrWvol .wvol

/-- R103, R109, R117: the envelope registers; the current volume and the step counter stay. -/
def Obligations.WritesOfEnvelopes : Prop :=
  WriteCommand 0x02 .wrEnv1 .env1 ∧ WriteCommand 0x12 .wrEnv2 .env2 ∧ WriteCommand 0x32 .wrEnv4 .env4

/-- R106, R116: the sweep and noise control registers; shadow, counters and LFSR stay; the noise period they give,
R142 at the default `drfTable` (log entry 4). -/
def Obligations.WritesOfSweepAndNoiseControl : Prop :=
  WriteCommand 0x05 .wrSweep .sweep ∧ WriteCommand 0x30 .wrNctrl .nctrl ∧
  ∀ g : Noise, g.period Config.params = noisePeriodFormula g.nctrl.toNat

/-- R104, R110, R114, R118: the panning registers. -/
def Obligations.WritesOfPannings : Prop :=
  WriteCommand 0x03 .wrPan1 (.pan .pulse1) ∧ WriteCommand 0x13 .wrPan2 (.pan .pulse2) ∧
  WriteCommand 0x23 .wrPan3 (.pan .wave) ∧ WriteCommand 0x33 .wrPan4 (.pan .noise)

/-- R105, R111, R115, R119: the mixer enables. -/
def Obligations.WritesOfMixerEnables : Prop :=
  WriteCommand 0x04 .wrMixen1 (.mixen .pulse1) ∧ WriteCommand 0x14 .wrMixen2 (.mixen .pulse2) ∧
  WriteCommand 0x24 .wrMixen3 (.mixen .wave) ∧ WriteCommand 0x34 .wrMixen4 (.mixen .noise)

/-- R120: the master volume; data above 255 or with bit 7 or bit 3 set is an illegal operand. -/
def Obligations.WriteOfMasterVolume : Prop :=
  (∀ d : BitVec 16, decode (wordOf 0x01#8 0x40#8 d) =
    if 255 < d.toNat ∨ d.getLsbD 7 = true ∨ d.getLsbD 3 = true then .bad .illegalOperand
    else .instr (.wrMvol (BitVec.ofNat 3 (d.toNat / 16)) (BitVec.ofNat 3 d.toNat))) ∧
  ∀ (l r : BitVec 3) (s : State), ∃ t, exec (.wrMvol l r) s = .next t ∧ Answered s t 0 ∧
    item t .mvol = .num (l.toNat * 16 + r.toNat) ∧ Frame [.mvol] (used s) t

/-- R121: a wave RAM byte. The invariant's canonical form of the wave RAM, the model's (log entry 11), is the premise,
and is kept. -/
def Obligations.WriteOfWaveRam : Prop :=
  ∀ i : BitVec 4,
    (∀ d : BitVec 16, decode (wordOf 0x01#8 (BitVec.ofNat 8 (0x80 + i.toNat)) d) =
      if 255 < d.toNat then .bad .illegalOperand else .instr (.wrWave i (BitVec.ofNat 8 d.toNat))) ∧
    ∀ (d : BitVec 8) (s : State), Memory.wf s.wave.ram = true →
      ∃ t, exec (.wrWave i d) s = .next t ∧ Answered s t 0 ∧ item t (.waveByte i.toFin) = .num d.toNat ∧
        Frame [.waveByte i.toFin] (used s) t ∧ Memory.wf t.wave.ram = true

/-- R123: reading a programmable register. -/
def Obligations.ReadsOfProgrammableRegisters : Prop :=
  ReadCommand 0x00 .rdFreq1 (·.pulse1.freq.toNat) ∧ ReadCommand 0x01 .rdDuty1 (·.pulse1.duty.toNat) ∧
  ReadCommand 0x02 .rdEnv1 (·.pulse1.env.reg.toNat) ∧ ReadCommand 0x03 .rdPan1 (·.pan.pulse1.toNat) ∧
  ReadCommand 0x04 .rdMixen1 (·.mixen.pulse1.toNat) ∧ ReadCommand 0x05 .rdSweep (·.sweep.reg.toNat) ∧
  ReadCommand 0x10 .rdFreq2 (·.pulse2.freq.toNat) ∧ ReadCommand 0x11 .rdDuty2 (·.pulse2.duty.toNat) ∧
  ReadCommand 0x12 .rdEnv2 (·.pulse2.env.reg.toNat) ∧ ReadCommand 0x13 .rdPan2 (·.pan.pulse2.toNat) ∧
  ReadCommand 0x14 .rdMixen2 (·.mixen.pulse2.toNat) ∧ ReadCommand 0x20 .rdFreq3 (·.wave.freq.toNat) ∧
  ReadCommand 0x21 .rdWvol (·.wave.wvol.toNat) ∧ ReadCommand 0x23 .rdPan3 (·.pan.wave.toNat) ∧
  ReadCommand 0x24 .rdMixen3 (·.mixen.wave.toNat) ∧ ReadCommand 0x30 .rdNctrl (·.noise.nctrl.toNat) ∧
  ReadCommand 0x32 .rdEnv4 (·.noise.env.reg.toNat) ∧ ReadCommand 0x33 .rdPan4 (·.pan.noise.toNat) ∧
  ReadCommand 0x34 .rdMixen4 (·.mixen.noise.toNat) ∧ ReadCommand 0x40 .rdMvol (·.mvol.toNat)

/-- R124, R126 to R128: the shadow, the current volumes, the LFSR, and the status byte, whose pending bit always
reads 0. -/
def Obligations.ReadsOfInternalValues : Prop :=
  ReadCommand 0x06 .rdShadow (·.sweep.shadow.toNat) ∧ ReadCommand 0x08 .rdEvol1 (·.pulse1.env.evol.toNat) ∧
  ReadCommand 0x18 .rdEvol2 (·.pulse2.env.evol.toNat) ∧ ReadCommand 0x38 .rdEvol4 (·.noise.env.evol.toNat) ∧
  ReadCommand 0x36 .rdLfsr (·.noise.lfsr.toNat) ∧
  ReadCommand 0x41 .rdStatus fun u =>
    u.chen.pulse1.toNat + 2 * u.chen.pulse2.toNat + 4 * u.chen.wave.toNat + 8 * u.chen.noise.toNat

/-- R125, R148 to R151 at the default `DUTY_MASK` (log entry 4): the gated outputs. -/
def Obligations.ReadsOfOutputs : Prop :=
  ReadCommand 0x07 .rdOut1 (outFormula · .pulse1) ∧ ReadCommand 0x17 .rdOut2 (outFormula · .pulse2) ∧
  ReadCommand 0x27 .rdOut3 (outFormula · .wave) ∧ ReadCommand 0x37 .rdOut4 (outFormula · .noise)

/-- R129: a wave RAM byte. -/
def Obligations.ReadsOfWaveRam : Prop :=
  ∀ i : BitVec 4, ReadCommand (BitVec.ofNat 8 (0x80 + i.toNat)) (.rdWave i) fun u =>
    (Memory.read u.wave.ram i.toNat).toNat

/-- R130: one value of the PCM frame; beyond the frame an IllegalAddress; never a use. -/
def Obligations.ReadsOfThePcmFrame : Prop :=
  ∀ (k : BitVec 24) (s : State),
    (k.toNat < 2 * s.pcmLen → ∃ t f, exec (.rdpcm k) s = .next t ∧ s.pcm[k.toNat / 2]? = some f ∧
      Answered s t ((if k.toNat % 2 = 0 then f.left else f.right).setWidth 32) ∧ Frame [] s t) ∧
    (2 * s.pcmLen ≤ k.toNat →
      exec (.rdpcm k) s = .fault (.illegalAddress (BitVec.ofNat 32 (0x03000000 + k.toNat))))

/-- R153 at the default `LFSR_INIT` 0x7FFF of R37 (log entry 4): the restart of each channel, and the operands that are
illegal. -/
def Obligations.TriggerRestartsAChannel : Prop :=
  (∀ (c : BitVec 8) (a : BitVec 16), 3 < c.toNat ∨ a ≠ 0 → decode (wordOf 0x10#8 c a) = .bad .illegalOperand) ∧
  ∀ s : State,
    (∃ t, exec (.trig .pulse1) s = .next t ∧ Answered s t 0 ∧ item t (.chen .pulse1) = .flag true ∧
      item t (.gcnt .pulse1) = .num 0 ∧ item t (.drift .pulse1) = .frac 0 ∧ item t .dpos1 = .num 0 ∧
      item t .evol1 = .num ((used s).pulse1.env.reg.toNat / 16) ∧ item t .ecnt1 = .num 0 ∧
      item t .shadow = item (used s) .freq1 ∧ item t .scnt = .num 0 ∧
      Frame [.chen .pulse1, .gcnt .pulse1, .drift .pulse1, .dpos1, .evol1, .ecnt1, .shadow, .scnt] (used s) t) ∧
    (∃ t, exec (.trig .pulse2) s = .next t ∧ Answered s t 0 ∧ item t (.chen .pulse2) = .flag true ∧
      item t (.gcnt .pulse2) = .num 0 ∧ item t (.drift .pulse2) = .frac 0 ∧ item t .dpos2 = .num 0 ∧
      item t .evol2 = .num ((used s).pulse2.env.reg.toNat / 16) ∧ item t .ecnt2 = .num 0 ∧
      Frame [.chen .pulse2, .gcnt .pulse2, .drift .pulse2, .dpos2, .evol2, .ecnt2] (used s) t) ∧
    (∃ t, exec (.trig .wave) s = .next t ∧ Answered s t 0 ∧ item t (.chen .wave) = .flag true ∧
      item t (.gcnt .wave) = .num 0 ∧ item t (.drift .wave) = .frac 0 ∧ item t .widx = .num 0 ∧
      Frame [.chen .wave, .gcnt .wave, .drift .wave, .widx] (used s) t) ∧
    ∃ t, exec (.trig .noise) s = .next t ∧ Answered s t 0 ∧ item t (.chen .noise) = .flag true ∧
      item t (.gcnt .noise) = .num 0 ∧ item t (.drift .noise) = .frac 0 ∧ item t .lfsr = .num 0x7FFF ∧
      item t .evol4 = .num ((used s).noise.env.reg.toNat / 16) ∧ item t .ecnt4 = .num 0 ∧
      Frame [.chen .noise, .gcnt .noise, .drift .noise, .lfsr, .evol4, .ecnt4] (used s) t

/-- R152 with R143 to R145: stepping a pulse or the wave generator by `a / 16` cycles. -/
def Obligations.GstepOfPulseAndWave : Prop :=
  ∀ (a : BitVec 16) (s : State),
    (let g := (used s).pulse1
     let n := ⌊g.timer.drift + (a.toNat : Rat) / 16⌋₊
     let period := (2048 - g.freq.toNat) * 4
     ∃ t, exec (.gstep .pulse1 a) s = .next t ∧ Answered s t 0 ∧
      item t (.drift .pulse1) = .frac (g.timer.drift + (a.toNat : Rat) / 16 - n) ∧
      item t (.gcnt .pulse1) = .num ((g.timer.gcnt + n) % period) ∧
      item t .dpos1 = .num ((g.dpos.toNat + (g.timer.gcnt + n) / period) % 8) ∧
      Frame [.drift .pulse1, .gcnt .pulse1, .dpos1] (used s) t) ∧
    (let g := (used s).pulse2
     let n := ⌊g.timer.drift + (a.toNat : Rat) / 16⌋₊
     let period := (2048 - g.freq.toNat) * 4
     ∃ t, exec (.gstep .pulse2 a) s = .next t ∧ Answered s t 0 ∧
      item t (.drift .pulse2) = .frac (g.timer.drift + (a.toNat : Rat) / 16 - n) ∧
      item t (.gcnt .pulse2) = .num ((g.timer.gcnt + n) % period) ∧
      item t .dpos2 = .num ((g.dpos.toNat + (g.timer.gcnt + n) / period) % 8) ∧
      Frame [.drift .pulse2, .gcnt .pulse2, .dpos2] (used s) t) ∧
    (let g := (used s).wave
     let n := ⌊g.timer.drift + (a.toNat : Rat) / 16⌋₊
     let period := (2048 - g.freq.toNat) * 2
     ∃ t, exec (.gstep .wave a) s = .next t ∧ Answered s t 0 ∧
      item t (.drift .wave) = .frac (g.timer.drift + (a.toNat : Rat) / 16 - n) ∧
      item t (.gcnt .wave) = .num ((g.timer.gcnt + n) % period) ∧
      item t .widx = .num ((g.widx.toNat + (g.timer.gcnt + n) / period) % 32) ∧
      Frame [.drift .wave, .gcnt .wave, .widx] (used s) t)

/-- R152 with R143, R146 and R142 at the default `drfTable` (log entry 4): stepping the noise generator; the LFSR
makes one shift per threshold crossing. A shift is given by its number: x is the exclusive or of the two lowest bits,
it enters at bit 14, and in 7-bit mode it replaces bit 6. -/
def Obligations.GstepOfNoise : Prop :=
  (∀ (a : BitVec 16) (s : State),
    let g := (used s).noise
    let n := ⌊g.timer.drift + (a.toNat : Rat) / 16⌋₊
    let period := noisePeriodFormula g.nctrl.toNat
    ∃ t, exec (.gstep .noise a) s = .next t ∧ Answered s t 0 ∧
      item t (.drift .noise) = .frac (g.timer.drift + (a.toNat : Rat) / 16 - n) ∧
      item t (.gcnt .noise) = .num ((g.timer.gcnt + n) % period) ∧
      item t .lfsr =
        .num ((lfsrShift (decide (g.nctrl.toNat / 8 % 2 = 1)))^[(g.timer.gcnt + n) / period] g.lfsr).toNat ∧
      Frame [.drift .noise, .gcnt .noise, .lfsr] (used s) t) ∧
  ∀ l : BitVec 15,
    let x := (l.toNat % 2 + l.toNat / 2 % 2) % 2
    let r := l.toNat / 2
    (lfsrShift false l).toNat = r + x * 2 ^ 14 ∧
    (lfsrShift true l).toNat = r + x * 2 ^ 14 - r / 64 % 2 * 64 + x * 64

/-- R143, R147: however a total amount is cut into advances, the state after them is the same, on every channel: no
cycle is lost or gained. -/
def Obligations.AdvancesAddUp : Prop :=
  ∀ (p : Config.Params) (ch : Channel) (s : State) (c : Rat) (cs : List Rat), LegalParams p →
    IsCarry (s.timer ch).drift → 0 ≤ c → (∀ d ∈ cs, 0 ≤ d) →
    (c :: cs).foldl (fun u d => advance p ch d u) s = advance p ch (c + cs.sum) s

/-- R143, R33: after an advance the counter is below the period and the carry is in [0, 1). -/
def Obligations.AdvanceEndsBelowThePeriod : Prop :=
  ∀ (p : Config.Params) (s : State) (c : Rat), LegalParams p → 0 ≤ c → (∀ ch, IsCarry (s.timer ch).drift) →
    (∀ ch, IsCarry ((stepAll p c s).timer ch).drift) ∧
    (stepAll p c s).pulse1.timer.gcnt < (stepAll p c s).pulse1.period ∧
    (stepAll p c s).pulse2.timer.gcnt < (stepAll p c s).pulse2.period ∧
    (stepAll p c s).wave.timer.gcnt < (stepAll p c s).wave.period ∧
    (stepAll p c s).noise.timer.gcnt < (stepAll p c s).noise.period p

/-- R204: stepping all generators is an advance of each; they share no state, so their order does not matter. -/
def Obligations.GeneratorsAreIndependent : Prop :=
  (∀ (p : Config.Params) (c : Rat) (s : State),
    stepAll p c s = advance p .noise c (advance p .wave c (advance p .pulse2 c (advance p .pulse1 c s)))) ∧
  ∀ (p : Config.Params) (a b : Channel) (c d : Rat) (s : State), a ≠ b →
    advance p a c (advance p b d s) = advance p b d (advance p a c s)

/-- R158, at the default `DUTY_MASK` (log entry 4): the pulse waveform repeats after `8 * period` cycles, is constant
while the counter stays below the period, and is high in 1, 2, 4, 6 of its 8 positions. -/
def Obligations.PulseWaveformIsPeriodic : Prop :=
  ∀ g : Pulse, g.timer.gcnt < g.period →
    g.wholeStep (8 * g.period) = g ∧
    (∀ n, g.timer.gcnt + n < g.period → (g.wholeStep n).bit Config.params = g.bit Config.params) ∧
    ((List.range 8).filter fun k => (g.wholeStep (k * g.period)).bit Config.params).length =
      [1, 2, 4, 6].getD g.duty.toNat 0

/-- R159, R146, at the default seed of R37 (log entry 4): in a fixed mode, 15-bit or 7-bit, the LFSR never reaches 0;
in 7-bit mode the first shift gives 0x3FBF and the register returns to it after 127 further shifts and not before.
With a mode switch it does reach 0: 22 shifts in 15-bit mode give 0x0080, and one shift in 7-bit mode then gives 0,
where it stays. -/
def Obligations.NoiseNeverSticksInAFixedMode : Prop :=
  (∀ (short : Bool) (n : Nat), (lfsrShift short)^[n] 0x7FFF ≠ 0) ∧
  (lfsrShift true 0x7FFF = 0x3FBF ∧ (lfsrShift true)^[127] 0x3FBF = 0x3FBF ∧
    ∀ n, 0 < n → n < 127 → (lfsrShift true)^[n] 0x3FBF ≠ 0x3FBF) ∧
  ((lfsrShift false)^[22] 0x7FFF = 0x0080 ∧ lfsrShift true 0x0080 = 0) ∧
  ∀ (short : Bool) (n : Nat), (lfsrShift short)^[n] 0 = 0

/-- R171 at the default `ENV_PERIOD_SCALE` 1 of R179 (log entry 4): one tick of each envelope, and the operands that are
illegal. -/
def Obligations.EnvelopeTicks : Prop :=
  let law (i : Instr) (env : State → Envelope) (evol ecnt : Item) : Prop :=
    ∀ s : State,
      let e := env (used s)
      let period := e.reg.toNat % 8
      ∃ t, exec i s = .next t ∧ Answered s t 0 ∧
        if period = 0 then Frame [] (used s) t
        else if e.ecnt + 1 < period then item t ecnt = .num (e.ecnt + 1) ∧ Frame [ecnt] (used s) t
        else item t ecnt = .num 0 ∧
          item t evol = .num (if e.reg.toNat / 8 % 2 = 1 then min 15 (e.evol.toNat + 1) else e.evol.toNat - 1) ∧
          Frame [evol, ecnt] (used s) t
  (∀ (c : BitVec 8) (a : BitVec 16), 3 < c.toNat ∨ c.toNat = 2 ∨ a ≠ 0 →
    decode (wordOf 0x12#8 c a) = .bad .illegalOperand) ∧
  law .etick0 (·.pulse1.env) .evol1 .ecnt1 ∧ law .etick1 (·.pulse2.env) .evol2 .ecnt2 ∧
    law .etick3 (·.noise.env) .evol4 .ecnt4

/-- R173: at period 0 the volume of a channel changes only at its `TRIG` and at reset. -/
def Obligations.ConstantVolumeAtPeriodZero : Prop :=
  ∀ (i : Instr) (s t : State), exec i s = .next t → i ≠ .reset →
    ((entered i s).pulse1.env.reg.toNat % 8 = 0 → i ≠ .trig .pulse1 → item t .evol1 = item (entered i s) .evol1) ∧
    ((entered i s).pulse2.env.reg.toNat % 8 = 0 → i ≠ .trig .pulse2 → item t .evol2 = item (entered i s) .evol2) ∧
    ((entered i s).noise.env.reg.toNat % 8 = 0 → i ≠ .trig .noise → item t .evol4 = item (entered i s) .evol4)

/-- R174, R175, R177 at the default `MAX_FREQ` 2047 and the default `SWEEP_PERIOD_SCALE` 1 of R179 (log entry 4): one
tick of the sweep, and the operand that is illegal. -/
def Obligations.SweepTick : Prop :=
  (∀ z : BitVec 24, z ≠ 0 → decode (immWordOf 0x13#8 z) = .bad .illegalOperand) ∧
  ∀ s : State,
    let w := (used s).sweep
    let time := w.reg.toNat / 16
    let shift := w.reg.toNat % 8
    let delta := w.shadow.toNat / 2 ^ shift
    ∃ t, exec .stick s = .next t ∧ Answered s t 0 ∧
      if time = 0 then Frame [] (used s) t
      else if w.scnt + 1 < time then item t .scnt = .num (w.scnt + 1) ∧ Frame [.scnt] (used s) t
      else item t .scnt = .num 0 ∧
        if shift = 0 then Frame [.scnt] (used s) t
        else if w.reg.toNat / 8 % 2 = 1 then
          item t .shadow = .num (w.shadow.toNat - delta) ∧ item t .freq1 = .num (w.shadow.toNat - delta) ∧
            Frame [.scnt, .shadow, .freq1] (used s) t
        else if 2047 < w.shadow.toNat + delta then
          item t (.chen .pulse1) = .flag false ∧ Frame [.scnt, .chen .pulse1] (used s) t
        else item t .shadow = .num (w.shadow.toNat + delta) ∧ item t .freq1 = .num (w.shadow.toNat + delta) ∧
          Frame [.scnt, .shadow, .freq1] (used s) t

/-- R175, R247, at the default `MAX_FREQ` (log entry 4): where the sweep calculation overflows and channel 0 is off,
any number of further ticks changes the step counter at most. -/
def Obligations.SweepOverflowLatches : Prop :=
  ∀ (n : Nat) (s : State), s.pending = false → s.chen.pulse1 = false → s.sweep.reg.toNat / 8 % 2 = 0 →
    2047 < s.sweep.shadow.toNat + s.sweep.shadow.toNat / 2 ^ (s.sweep.reg.toNat % 8) →
    ∃ t, execAll (List.replicate n .stick) s = .next t ∧ Frame [.scnt] s t

/-- R176: while the sweep subtracts, any number of ticks neither raises the shadow nor disables the channel, and a
shadow below `2 ^ shift` stays. -/
def Obligations.SweepSubtractionIsSafe : Prop :=
  ∀ (n : Nat) (s : State), s.pending = false → s.sweep.reg.toNat / 8 % 2 = 1 →
    ∃ t, execAll (List.replicate n .stick) s = .next t ∧ t.sweep.shadow.toNat ≤ s.sweep.shadow.toNat ∧
      t.chen = s.chen ∧
      (s.sweep.shadow.toNat < 2 ^ (s.sweep.reg.toNat % 8) → t.sweep.shadow = s.sweep.shadow)

/-- R246, at the default `MAX_FREQ` and `SWEEP_PERIOD_SCALE` (log entry 4): a frequency written under an active sweep
is discarded at the next expiry: the result is that of the tick without the write. -/
def Obligations.StaleShadowWins : Prop :=
  ∀ (d : BitVec 11) (s t u : State), execAll [.wrFreq1 d, .stick] s = .next t → execAll [.stick] s = .next u →
    (used s).sweep.reg.toNat / 16 ≠ 0 → (used s).sweep.reg.toNat % 8 ≠ 0 →
    (used s).sweep.reg.toNat / 16 ≤ (used s).sweep.scnt + 1 →
    ((used s).sweep.reg.toNat / 8 % 2 = 1 ∨
      (used s).sweep.shadow.toNat + (used s).sweep.shadow.toNat / 2 ^ ((used s).sweep.reg.toNat % 8) ≤ 2047) →
    Frame [] u t

/-- R190 to R192 at the default `volTable`, `PCM_SCALE` 64 and `DUTY_MASK` (log entry 4): the mix, its range, that
`MIX` advances nothing, and the operand that is illegal. -/
def Obligations.MixSumsTheChannels : Prop :=
  (∀ z : BitVec 24, z ≠ 0 → decode (immWordOf 0x20#8 z) = .bad .illegalOperand) ∧
  ∀ s : State,
    let left := accFormula 2 (used s) * ((used s).mvol.toNat / 16 % 8 + 1) * 64
    let right := accFormula 1 (used s) * ((used s).mvol.toNat % 8 + 1) * 64
    left ≤ 30720 ∧ right ≤ 30720 ∧
    ∃ t, exec .mix s = .next t ∧ Answered s t (BitVec.ofNat 32 (left * 65536 + right)) ∧ Frame [] (used s) t

/-- R9, R191: with any legal parameters a PCM value is the exact product and fits a signed 16-bit value. -/
def Obligations.PcmValuesFit : Prop :=
  ∀ (p : Config.Params) (s : State), LegalParams p →
    (mixSample p s).left.toNat = acc p panLeft s * ((mvolLeft s.mvol).toNat + 1) * p.pcmScale ∧
    (mixSample p s).right.toNat = acc p panRight s * ((mvolRight s.mvol).toNat + 1) * p.pcmScale ∧
    (mixSample p s).left.toNat ≤ 32767 ∧ (mixSample p s).right.toNat ≤ 32767

/-- R194, R195: the two setters; an immediate of 0 is an illegal operand; neither is a use. -/
def Obligations.RateSetters : Prop :=
  ∀ (v : BitVec 24) (s : State),
    (v ≠ 0 → ∃ t, exec (.setfps v) s = .next t ∧ Answered s t 0 ∧ item t .fps = .num v.toNat ∧
      item t .pending = .flag true ∧ item t .pcm = .frame [] ∧ Frame [.fps, .pending, .pcm] s t) ∧
    (v ≠ 0 → ∃ t, exec (.setrate v) s = .next t ∧ Answered s t 0 ∧ item t .rate = .num v.toNat ∧
      item t .pending = .flag true ∧ item t .pcm = .frame [] ∧ Frame [.rate, .pending, .pcm] s t) ∧
    exec (.setfps 0) s = .fault (.illegalOperand 0x32000000) ∧
    exec (.setrate 0) s = .fault (.illegalOperand 0x33000000)

/-- R244, at the default reset values 0 (log entry 4): a change of either rate wipes every programmable register and
the wave RAM at the next use. -/
def Obligations.RateChangeWipesRegisters : Prop :=
  ∀ (v : BitVec 24) (s t : State) (x : Item), exec (.setfps v) s = .next t ∨ exec (.setrate v) s = .next t →
    x.programmable = true → item (used t) x = .num 0

/-- R197 at the default `LFSR_INIT` 0x7FFF and reset values 0 of R37, R50 (log entry 4): `RESET`, and the operand that
is illegal. -/
def Obligations.ResetCommand : Prop :=
  (∀ z : BitVec 24, z ≠ 0 → decode (immWordOf 0x31#8 z) = .bad .illegalOperand) ∧
  ∀ s : State, ∃ t, exec .reset s = .next t ∧ Answered s t 0 ∧
    ∀ x, item t x =
      match x with
      | .fps => item s .fps
      | .rate => item s .rate
      | .pcmCap => item (used s) .pcmCap
      | .pending => .flag false
      | .lfsr => .num 0x7FFF
      | .chen _ => .flag false
      | .drift _ | .ccarry | .scarry => .frac 0
      | .pcm => .frame []
      | _ => .num 0

/-- R198 to R201, R203, R209, at the default `CLOCK_HZ` (log entry 4): `RUN` completes when both rates are configured;
response, carries, frame length, and every item it leaves alone. Under the invariant N fits the response and the
buffer (R207). -/
def Obligations.RunMakesOneFrame : Prop :=
  ∀ s : State, s.fps ≠ 0 → s.rate ≠ 0 →
    let cycles := cpfFormula s + (used s).ccarry
    let samples := spfFormula s + (used s).scarry
    ∃ t, exec .run s = .next t ∧ Answered s t (BitVec.ofNat 32 ⌊samples⌋₊) ∧ t.pcmLen = ⌊samples⌋₊ ∧
      item t .ccarry = .frac (cycles - ⌊cycles⌋₊) ∧ item t .scarry = .frac (samples - ⌊samples⌋₊) ∧
      (Invariant s → ⌊samples⌋₊ < 2 ^ 32 ∧ ⌊samples⌋₊ ≤ t.pcmCap) ∧
      ∀ x, (x.programmable = true ∧ x ≠ .freq1) ∨ x = .fps ∨ x = .rate ∨ x = .pending ∨ x = .pcmCap ∨
        x = .chen .pulse2 ∨ x = .chen .wave ∨ x = .chen .noise → item t x = item (used s) x

/-- R202, R206, at the default parameters (log entry 4; R206 asks this of every kernel): whatever the sampling
instants, after `RUN` everything but the carries and the frame is as after the modulator ticks and one step of all
generators by the W whole cycles of the frame. -/
def Obligations.RunAdvancesByWholeCycles : Prop :=
  ∀ s t : State, Invariant s → exec .run s = .next t →
    Frame [.ccarry, .scarry, .pcm]
      (stepAll Config.params (⌊cpfFormula s + (used s).ccarry⌋₊ : Rat) (modulatorTicks Config.params (used s))) t

/-- R206, R207 at the default kernel, point sampling (log entries 4, 5): sample `k` of the frame is the mix at the
instant `(k + 1) * W / N` of the frame. -/
def Obligations.RunSamplesAtEvenInstants : Prop :=
  ∀ (s t : State) (k : Nat), Invariant s → exec .run s = .next t → k < t.pcmLen →
    t.pcm[k]? = some (mixSample Config.params (stepAll Config.params
      ((k + 1 : Nat) * ((⌊cpfFormula s + (used s).ccarry⌋₊ : Rat) / (t.pcmLen : Rat)))
      (modulatorTicks Config.params (used s))))

/-- R198, R199, at the default `CLOCK_HZ` (log entry 4): over any number of frames from carries of 0 the counts add up
to the floor of the exact product, every frame has one of the two sizes, and both carries are the exact fractions. -/
def Obligations.LongRunRateIsExact : Prop :=
  ∀ (n : Nat) (s : State), Invariant s → s.pending = false → s.fps ≠ 0 → s.rate ≠ 0 → s.ccarry = 0 → s.scarry = 0 →
    ∃ t counts, execAll (List.replicate n .run) s = .next t ∧ t.responses = s.responses ++ counts ∧
      counts.length = n ∧ (counts.map (·.toNat)).sum = ⌊n * spfFormula s⌋₊ ∧
      (∀ r ∈ counts, r.toNat = ⌊spfFormula s⌋₊ ∨ r.toNat = ⌊spfFormula s⌋₊ + 1) ∧
      t.ccarry = n * cpfFormula s - ⌊n * cpfFormula s⌋₊ ∧ t.scarry = n * spfFormula s - ⌊n * spfFormula s⌋₊

/-- R242, at the default parameters (log entry 4): after a `RESET` a `RUN` yields a frame of zeros of the correct
length, and `MIX` answers 0. -/
def Obligations.SilenceAfterReset : Prop :=
  ∀ s t : State, exec .reset s = .next t →
    (∀ u, exec .run t = .next u → u.pcmLen = ⌊spfFormula s⌋₊ ∧ ∀ f ∈ u.pcm, f = ⟨0, 0⟩) ∧
    ∃ u, exec .mix t = .next u ∧ Answered t u 0

/-- R94: each pseudo-instruction has the effects, the frame and the responses of the commands it stands for: the sixteen
writes of `LDWAVE` (the canonical wave RAM is the model's form, log entry 11), the frequency write and the restart of
R153 of `NOTE`, the ticks of a frame of `MODTICK`. -/
def Obligations.PseudoInstructions : Prop :=
  (∀ (b : Vector Byte 16) (s : State), Memory.wf s.wave.ram = true →
    ∃ t, execAll (expand (.ldwave b)) s = .next t ∧ t.responses = s.responses ++ List.replicate 16 0 ∧
      t.port = s.port ∧ (∀ i : Fin 16, item t (.waveByte i) = .num b[i].toNat) ∧
      ∀ x, (∀ i, x ≠ .waveByte i) → item t x = item (used s) x) ∧
  (∀ (f : BitVec 11) (s : State), ∃ t, execAll (expand (.note .pulse1 f)) s = .next t ∧
    t.responses = s.responses ++ [0, 0] ∧ t.port = s.port ∧ item t .freq1 = .num f.toNat ∧
    item t (.chen .pulse1) = .flag true ∧ item t (.gcnt .pulse1) = .num 0 ∧ item t (.drift .pulse1) = .frac 0 ∧
    item t .dpos1 = .num 0 ∧ item t .evol1 = .num ((used s).pulse1.env.reg.toNat / 16) ∧ item t .ecnt1 = .num 0 ∧
    item t .shadow = .num f.toNat ∧ item t .scnt = .num 0 ∧
    Frame [.freq1, .chen .pulse1, .gcnt .pulse1, .drift .pulse1, .dpos1, .evol1, .ecnt1, .shadow, .scnt] (used s) t) ∧
  (∀ (f : BitVec 11) (s : State), ∃ t, execAll (expand (.note .pulse2 f)) s = .next t ∧
    t.responses = s.responses ++ [0, 0] ∧ t.port = s.port ∧ item t .freq2 = .num f.toNat ∧
    item t (.chen .pulse2) = .flag true ∧ item t (.gcnt .pulse2) = .num 0 ∧ item t (.drift .pulse2) = .frac 0 ∧
    item t .dpos2 = .num 0 ∧ item t .evol2 = .num ((used s).pulse2.env.reg.toNat / 16) ∧ item t .ecnt2 = .num 0 ∧
    Frame [.freq2, .chen .pulse2, .gcnt .pulse2, .drift .pulse2, .dpos2, .evol2, .ecnt2] (used s) t) ∧
  (∀ (f : BitVec 11) (s : State), ∃ t, execAll (expand (.note .wave f)) s = .next t ∧
    t.responses = s.responses ++ [0, 0] ∧ t.port = s.port ∧ item t .freq3 = .num f.toNat ∧
    item t (.chen .wave) = .flag true ∧ item t (.gcnt .wave) = .num 0 ∧ item t (.drift .wave) = .frac 0 ∧
    item t .widx = .num 0 ∧ Frame [.freq3, .chen .wave, .gcnt .wave, .drift .wave, .widx] (used s) t) ∧
  ∀ s : State, ∃ t, execAll (expand .modtick) s = .next t ∧ t.responses = s.responses ++ [0, 0, 0, 0] ∧
    t.port = s.port ∧ Frame [] (modulatorTicks Config.params (used s)) t
end

