-- ==== Sys2Proof/Laws/Words.lean ====
section
/-! SUPPORT. The fields of a built word, and a word rebuilt from its fields (30_encoding.md R81 to R85); the values per
channel. -/

namespace Sys2Proof

theorem wordOf_toNat (op addr : BitVec 8) (data : BitVec 16) :
    (wordOf op addr data).toNat = op.toNat * 16777216 + addr.toNat * 65536 + data.toNat := by
  show (op ++ addr ++ data : BitVec (8 + 8 + 16)).toNat = _
  simp only [BitVec.toNat_append]
  rw [← Nat.shiftLeft_add_eq_or_of_lt addr.isLt, ← Nat.shiftLeft_add_eq_or_of_lt data.isLt]
  simp only [Nat.shiftLeft_eq]
  omega

theorem immWordOf_toNat (op : BitVec 8) (imm : BitVec 24) :
    (immWordOf op imm).toNat = op.toNat * 16777216 + imm.toNat := by
  show (op ++ imm : BitVec (8 + 24)).toNat = _
  simp only [BitVec.toNat_append]
  rw [← Nat.shiftLeft_add_eq_or_of_lt imm.isLt]
  simp only [Nat.shiftLeft_eq]

@[simp] theorem opcodeField_wordOf (op addr : BitVec 8) (data : BitVec 16) : opcodeField (wordOf op addr data) = op := by
  apply BitVec.eq_of_toNat_eq
  simp [opcodeField, wordOf_toNat, Nat.shiftRight_eq_div_pow]
  omega

@[simp] theorem addrField_wordOf (op addr : BitVec 8) (data : BitVec 16) : addrField (wordOf op addr data) = addr := by
  apply BitVec.eq_of_toNat_eq
  simp [addrField, wordOf_toNat, Nat.shiftRight_eq_div_pow]
  omega

@[simp] theorem dataField_wordOf (op addr : BitVec 8) (data : BitVec 16) : dataField (wordOf op addr data) = data := by
  apply BitVec.eq_of_toNat_eq
  simp [dataField, wordOf_toNat, Nat.shiftRight_eq_div_pow]
  omega

@[simp] theorem opcodeField_immWordOf (op : BitVec 8) (imm : BitVec 24) : opcodeField (immWordOf op imm) = op := by
  apply BitVec.eq_of_toNat_eq
  simp [opcodeField, immWordOf_toNat, Nat.shiftRight_eq_div_pow]
  omega

@[simp] theorem immField_immWordOf (op : BitVec 8) (imm : BitVec 24) : immField (immWordOf op imm) = imm := by
  apply BitVec.eq_of_toNat_eq
  simp [immField, immWordOf_toNat, Nat.shiftRight_eq_div_pow]
  omega

/-- A word is its opcode, address and data. -/
theorem wordOf_fields (w : Word) : wordOf (opcodeField w) (addrField w) (dataField w) = w := by
  apply BitVec.eq_of_toNat_eq
  simp [opcodeField, addrField, dataField, wordOf_toNat, Nat.shiftRight_eq_div_pow]
  omega

/-- A word is its opcode and immediate. -/
theorem immWordOf_fields (w : Word) : immWordOf (opcodeField w) (immField w) = w := by
  apply BitVec.eq_of_toNat_eq
  simp [opcodeField, immField, immWordOf_toNat, Nat.shiftRight_eq_div_pow]
  omega

/-- A data value that fits `n` bits is the zero-extension of its low `n` bits. -/
theorem setWidth_extractLsb_of_lt {n : Nat} (data : BitVec 16) (hn : n ≤ 16) (h : data.toNat < 2 ^ n) :
    (data.extractLsb' 0 n).setWidth 16 = data := by
  have hp : 2 ^ n ≤ 2 ^ 16 := Nat.pow_le_pow_right (by decide) hn
  apply BitVec.eq_of_toNat_eq
  simp only [BitVec.toNat_setWidth, BitVec.extractLsb'_toNat, Nat.shiftRight_zero]
  rw [Nat.mod_eq_of_lt h, Nat.mod_eq_of_lt (by omega)]

/-- The low `n` bits of a zero-extension. -/
theorem extractLsb_setWidth {n : Nat} (d : BitVec n) (hn : n ≤ 16) : (d.setWidth 16).extractLsb' 0 n = d := by
  have hp : 2 ^ n ≤ 2 ^ 16 := Nat.pow_le_pow_right (by decide) hn
  have hd := d.isLt
  apply BitVec.eq_of_toNat_eq
  simp only [BitVec.toNat_setWidth, BitVec.extractLsb'_toNat, Nat.shiftRight_zero]
  rw [Nat.mod_eq_of_lt (show d.toNat < 2 ^ 16 by omega), Nat.mod_eq_of_lt hd]

/-- No data bit at or above `n` is set exactly when the value fits `n` bits; `2 ^ n - 1` is the mask of R61's width. -/
theorem and_not_lowMask {n : Nat} (data : BitVec 16) :
    data &&& ~~~(BitVec.ofNat 16 (2 ^ n - 1)) = 0 ↔ data.toNat < 2 ^ n := by
  constructor
  · intro h
    apply Nat.lt_pow_two_of_testBit
    intro i hi
    have := congrArg (fun v : BitVec 16 => v.getLsbD i) h
    simp only [BitVec.getLsbD_and, BitVec.getLsbD_not, BitVec.getLsbD_ofNat, Nat.testBit_two_pow_sub_one] at this
    by_cases h16 : i < 16
    · simp [h16, Nat.not_lt.mpr hi] at this
      exact this
    · exact BitVec.getLsbD_of_ge data i (by omega)
  · intro h
    apply BitVec.eq_of_getLsbD_eq
    intro i _
    simp only [BitVec.getLsbD_and, BitVec.getLsbD_not, BitVec.getLsbD_ofNat, Nat.testBit_two_pow_sub_one]
    by_cases hin : i < n
    · simp_all
    · have : data.getLsbD i = false := Nat.testBit_lt_two_pow (lt_of_lt_of_le h (Nat.pow_le_pow_right (by decide) (by omega)))
      simp [this]

theorem getLsbD_wordOf (op addr : BitVec 8) (data : BitVec 16) (i : Nat) :
    (wordOf op addr data).getLsbD i =
      if i < 16 then data.getLsbD i else if i < 24 then addr.getLsbD (i - 16) else op.getLsbD (i - 24) := by
  show (op ++ addr ++ data : BitVec (8 + 8 + 16)).getLsbD i = _
  simp only [BitVec.getLsbD_append]
  split
  · rfl
  · by_cases h : i < 24
    · rw [if_pos (by omega), if_pos h]
    · rw [if_neg (by omega), if_neg h]
      congr 1

theorem getLsbD_immWordOf (op : BitVec 8) (imm : BitVec 24) (i : Nat) :
    (immWordOf op imm).getLsbD i = if i < 24 then imm.getLsbD i else op.getLsbD (i - 24) := by
  show (op ++ imm : BitVec (8 + 24)).getLsbD i = _
  simp only [BitVec.getLsbD_append]

/-- A masked word is the word of the masked fields. -/
theorem wordOf_and_wordOf (a b : BitVec 8) (c : BitVec 16) (a' b' : BitVec 8) (c' : BitVec 16) :
    wordOf a b c &&& wordOf a' b' c' = wordOf (a &&& a') (b &&& b') (c &&& c') := by
  apply BitVec.eq_of_getLsbD_eq
  intro i hi
  simp only [BitVec.getLsbD_and, getLsbD_wordOf]
  split
  · rfl
  · split <;> rfl

theorem immWordOf_and_immWordOf (a : BitVec 8) (b : BitVec 24) (a' : BitVec 8) (b' : BitVec 24) :
    immWordOf a b &&& immWordOf a' b' = immWordOf (a &&& a') (b &&& b') := by
  apply BitVec.eq_of_getLsbD_eq
  intro i hi
  simp only [BitVec.getLsbD_and, getLsbD_immWordOf]
  split <;> rfl

theorem Quad.get_set_same {α : Type} (q : Quad α) (ch : Channel) (v : α) : (q.set ch v).get ch = v := by cases ch <;> rfl

theorem Quad.get_set_other {α : Type} (q : Quad α) {ch d : Channel} (v : α) (h : d ≠ ch) :
    (q.set ch v).get d = q.get d := by cases ch <;> cases d <;> first | rfl | exact absurd rfl h

theorem Quad.get_all {α : Type} (v : α) (ch : Channel) : (Quad.all v).get ch = v := by cases ch <;> rfl

theorem Quad.ext_get {α : Type} {q r : Quad α} (h : ∀ ch, q.get ch = r.get ch) : q = r := by
  cases q
  cases r
  simp only [Quad.mk.injEq]
  exact ⟨h .pulse1, h .pulse2, h .wave, h .noise⟩

end Sys2Proof
end

