-- ==== Sys2Proof/Laws/Decode.lean ====
section
/-! SUPPORT. The decoder on built words, and the encoder as its way back, format by format (30_encoding.md R81 to
R88). -/

namespace Sys2Proof

theorem decode_wr (addr : BitVec 8) (data : BitVec 16) : decode (wordOf 0x01#8 addr data) = decodeWr Config.params addr data := by
  simp [decode, decodeWith]

theorem decode_rd (addr : BitVec 8) (data : BitVec 16) : decode (wordOf 0x02#8 addr data) = decodeRd addr data := by
  simp [decode, decodeWith]

theorem wordOf_inj {a a' b b' : BitVec 8} {c c' : BitVec 16} (h : wordOf a b c = wordOf a' b' c') :
    a = a' ∧ b = b' ∧ c = c' :=
  ⟨by simpa using congrArg opcodeField h, by simpa using congrArg addrField h, by simpa using congrArg dataField h⟩

/-- With `FREQ_BITS` other than the default the three frequency registers take data of that many bits and no more
(00_scope.md R9, 20_memory.md R61). -/
theorem decodeWr_freq (p : Config.Params) (data : BitVec 16) :
    decodeWr p 0x00#8 data =
        (if data.toNat < 2 ^ p.freqBits then .instr (.wrFreq1 (data.extractLsb' 0 11)) else .bad .illegalOperand) ∧
      decodeWr p 0x10#8 data =
        (if data.toNat < 2 ^ p.freqBits then .instr (.wrFreq2 (data.extractLsb' 0 11)) else .bad .illegalOperand) ∧
      decodeWr p 0x20#8 data =
        (if data.toNat < 2 ^ p.freqBits then .instr (.wrFreq3 (data.extractLsb' 0 11)) else .bad .illegalOperand) := by
  simp only [← and_not_lowMask]
  exact ⟨rfl, rfl, rfl⟩

/-- Data within a low mask comes back from its field. -/
theorem setWidth_of_legal {data : BitVec 16} (n : Nat) (hn : n ≤ 16)
    (h : data &&& ~~~(BitVec.ofNat 16 (2 ^ n - 1)) = 0) : (data.extractLsb' 0 n).setWidth 16 = data :=
  setWidth_extractLsb_of_lt data hn ((and_not_lowMask data).mp h)

/-- Data within `MVOL`'s mask comes back from its two levels (40_register_access.md R120). -/
theorem mvolData_of_legal (d : BitVec 16) (h : d &&& ~~~0x0077#16 = 0) :
    (d.extractLsb' 4 3).setWidth 16 <<< 4 ||| (d.extractLsb' 0 3).setWidth 16 = d := by
  apply BitVec.eq_of_getLsbD_eq
  intro i hi
  have := congrArg (fun v : BitVec 16 => v.getLsbD i) h
  interval_cases i <;> simp at this ⊢ <;> simp [this]

theorem waveAddr_of_high (a : BitVec 8) (h : a.extractLsb' 4 4 = 8#4) :
    0x80#8 ||| (a.extractLsb' 0 4).setWidth 8 = a := by
  revert a
  decide

theorem encode_of_decodeWr {a : BitVec 8} {d : BitVec 16} {i : Instr} (h : decodeWr Config.params a d = .instr i) :
    encode i = wordOf 1#8 a d := by
  unfold decodeWr at h
  split at h
  · simp at h
  · split at h
    · rename_i r hr hz
      simp only [Decoded.instr.injEq] at h
      unfold writePoint at hr
      split at hr
      case h_21 =>
        split at hr
        · rename_i ha
          cases hr
          subst h
          simp only [encode]
          rw [setWidth_of_legal 8 (by decide) hz, waveAddr_of_high _ ha]
        · simp at hr
      all_goals
        cases hr
        subst h
        simp only [encode]
      all_goals first
        | rw [setWidth_of_legal 11 (by decide) hz]
        | rw [setWidth_of_legal 2 (by decide) hz]
        | rw [setWidth_of_legal 8 (by decide) hz]
        | rw [setWidth_of_legal 1 (by decide) hz]
        | rw [setWidth_of_legal 7 (by decide) hz]
        | rw [mvolData_of_legal _ hz]
    · simp at h

theorem encode_of_decodeRd {a : BitVec 8} {d : BitVec 16} {i : Instr} (h : decodeRd a d = .instr i) :
    encode i = wordOf 2#8 a d := by
  unfold decodeRd at h
  split at h
  · rename_i hz
    subst hz
    split at h
    · rename_i j hr
      simp only [Decoded.instr.injEq] at h
      subst h
      unfold readPoint at hr
      split at hr
      case h_31 =>
        split at hr
        · rename_i ha
          cases hr
          simp only [encode]
          rw [waveAddr_of_high _ ha]
          rfl
        · simp at hr
      all_goals
        cases hr
        rfl
    · simp at h
  · simp at h

theorem channelNumber_of_channelOf {c : BitVec 8} {ch : Channel} (h : channelOf c = some ch) : channelNumber ch = c := by
  unfold channelOf at h
  split at h <;> cases h <;> rfl

theorem encode_of_etickOf {c : BitVec 8} {i : Instr} (h : etickOf c = some i) : encode i = wordOf 0x12#8 c 0#16 := by
  unfold etickOf at h
  split at h <;> cases h <;> rfl

theorem of_needZero {n : Nat} {f : BitVec n} {j : Option Instr} {i : Instr} (h : needZero f j = .instr i) :
    j = some i ∧ f = 0 := by
  unfold needZero at h
  split at h
  · split at h
    · cases h
      exact ⟨rfl, ‹_›⟩
    · simp at h
  · simp at h

end Sys2Proof
end

