-- ==== Sys2Proof/Laws/State.lean ====
section
/-! SUPPORT. What every field of the state is after each record update: one lemma per field and update, true by
definition, so that no proof unfolds an update. -/

namespace Sys2Proof.Machine

-- State.respond
@[simp] theorem respond_pulse1 (r : Word) (s : State) : (s.respond r).pulse1 = s.pulse1 := rfl
@[simp] theorem respond_pulse2 (r : Word) (s : State) : (s.respond r).pulse2 = s.pulse2 := rfl
@[simp] theorem respond_wave (r : Word) (s : State) : (s.respond r).wave = s.wave := rfl
@[simp] theorem respond_noise (r : Word) (s : State) : (s.respond r).noise = s.noise := rfl
@[simp] theorem respond_sweep (r : Word) (s : State) : (s.respond r).sweep = s.sweep := rfl
@[simp] theorem respond_chen (r : Word) (s : State) : (s.respond r).chen = s.chen := rfl
@[simp] theorem respond_pan (r : Word) (s : State) : (s.respond r).pan = s.pan := rfl
@[simp] theorem respond_mixen (r : Word) (s : State) : (s.respond r).mixen = s.mixen := rfl
@[simp] theorem respond_mvol (r : Word) (s : State) : (s.respond r).mvol = s.mvol := rfl
@[simp] theorem respond_fps (r : Word) (s : State) : (s.respond r).fps = s.fps := rfl
@[simp] theorem respond_rate (r : Word) (s : State) : (s.respond r).rate = s.rate := rfl
@[simp] theorem respond_pending (r : Word) (s : State) : (s.respond r).pending = s.pending := rfl
@[simp] theorem respond_ccarry (r : Word) (s : State) : (s.respond r).ccarry = s.ccarry := rfl
@[simp] theorem respond_scarry (r : Word) (s : State) : (s.respond r).scarry = s.scarry := rfl
@[simp] theorem respond_pcmCap (r : Word) (s : State) : (s.respond r).pcmCap = s.pcmCap := rfl
@[simp] theorem respond_pcm (r : Word) (s : State) : (s.respond r).pcm = s.pcm := rfl
@[simp] theorem respond_port (r : Word) (s : State) : (s.respond r).port = s.port := rfl
@[simp] theorem respond_responses (r : Word) (s : State) : (s.respond r).responses = s.responses ++ [r] := rfl

-- State.present
@[simp] theorem present_pulse1 (w : Word) (s : State) : (s.present w).pulse1 = s.pulse1 := rfl
@[simp] theorem present_pulse2 (w : Word) (s : State) : (s.present w).pulse2 = s.pulse2 := rfl
@[simp] theorem present_wave (w : Word) (s : State) : (s.present w).wave = s.wave := rfl
@[simp] theorem present_noise (w : Word) (s : State) : (s.present w).noise = s.noise := rfl
@[simp] theorem present_sweep (w : Word) (s : State) : (s.present w).sweep = s.sweep := rfl
@[simp] theorem present_chen (w : Word) (s : State) : (s.present w).chen = s.chen := rfl
@[simp] theorem present_pan (w : Word) (s : State) : (s.present w).pan = s.pan := rfl
@[simp] theorem present_mixen (w : Word) (s : State) : (s.present w).mixen = s.mixen := rfl
@[simp] theorem present_mvol (w : Word) (s : State) : (s.present w).mvol = s.mvol := rfl
@[simp] theorem present_fps (w : Word) (s : State) : (s.present w).fps = s.fps := rfl
@[simp] theorem present_rate (w : Word) (s : State) : (s.present w).rate = s.rate := rfl
@[simp] theorem present_pending (w : Word) (s : State) : (s.present w).pending = s.pending := rfl
@[simp] theorem present_ccarry (w : Word) (s : State) : (s.present w).ccarry = s.ccarry := rfl
@[simp] theorem present_scarry (w : Word) (s : State) : (s.present w).scarry = s.scarry := rfl
@[simp] theorem present_pcmCap (w : Word) (s : State) : (s.present w).pcmCap = s.pcmCap := rfl
@[simp] theorem present_pcm (w : Word) (s : State) : (s.present w).pcm = s.pcm := rfl
@[simp] theorem present_port (w : Word) (s : State) : (s.present w).port = w :: s.port := rfl
@[simp] theorem present_responses (w : Word) (s : State) : (s.present w).responses = s.responses := rfl

-- State.activate
@[simp] theorem activate_pulse1 (ch : Channel) (s : State) : (s.activate ch).pulse1 = s.pulse1 := rfl
@[simp] theorem activate_pulse2 (ch : Channel) (s : State) : (s.activate ch).pulse2 = s.pulse2 := rfl
@[simp] theorem activate_wave (ch : Channel) (s : State) : (s.activate ch).wave = s.wave := rfl
@[simp] theorem activate_noise (ch : Channel) (s : State) : (s.activate ch).noise = s.noise := rfl
@[simp] theorem activate_sweep (ch : Channel) (s : State) : (s.activate ch).sweep = s.sweep := rfl
@[simp] theorem activate_chen (ch : Channel) (s : State) : (s.activate ch).chen = s.chen.set ch true := rfl
@[simp] theorem activate_pan (ch : Channel) (s : State) : (s.activate ch).pan = s.pan := rfl
@[simp] theorem activate_mixen (ch : Channel) (s : State) : (s.activate ch).mixen = s.mixen := rfl
@[simp] theorem activate_mvol (ch : Channel) (s : State) : (s.activate ch).mvol = s.mvol := rfl
@[simp] theorem activate_fps (ch : Channel) (s : State) : (s.activate ch).fps = s.fps := rfl
@[simp] theorem activate_rate (ch : Channel) (s : State) : (s.activate ch).rate = s.rate := rfl
@[simp] theorem activate_pending (ch : Channel) (s : State) : (s.activate ch).pending = s.pending := rfl
@[simp] theorem activate_ccarry (ch : Channel) (s : State) : (s.activate ch).ccarry = s.ccarry := rfl
@[simp] theorem activate_scarry (ch : Channel) (s : State) : (s.activate ch).scarry = s.scarry := rfl
@[simp] theorem activate_pcmCap (ch : Channel) (s : State) : (s.activate ch).pcmCap = s.pcmCap := rfl
@[simp] theorem activate_pcm (ch : Channel) (s : State) : (s.activate ch).pcm = s.pcm := rfl
@[simp] theorem activate_port (ch : Channel) (s : State) : (s.activate ch).port = s.port := rfl
@[simp] theorem activate_responses (ch : Channel) (s : State) : (s.activate ch).responses = s.responses := rfl

-- State.disablePulse1
@[simp] theorem disablePulse1_pulse1 (s : State) : (s.disablePulse1).pulse1 = s.pulse1 := rfl
@[simp] theorem disablePulse1_pulse2 (s : State) : (s.disablePulse1).pulse2 = s.pulse2 := rfl
@[simp] theorem disablePulse1_wave (s : State) : (s.disablePulse1).wave = s.wave := rfl
@[simp] theorem disablePulse1_noise (s : State) : (s.disablePulse1).noise = s.noise := rfl
@[simp] theorem disablePulse1_sweep (s : State) : (s.disablePulse1).sweep = s.sweep := rfl
@[simp] theorem disablePulse1_chen (s : State) : (s.disablePulse1).chen = s.chen.set .pulse1 false := rfl
@[simp] theorem disablePulse1_pan (s : State) : (s.disablePulse1).pan = s.pan := rfl
@[simp] theorem disablePulse1_mixen (s : State) : (s.disablePulse1).mixen = s.mixen := rfl
@[simp] theorem disablePulse1_mvol (s : State) : (s.disablePulse1).mvol = s.mvol := rfl
@[simp] theorem disablePulse1_fps (s : State) : (s.disablePulse1).fps = s.fps := rfl
@[simp] theorem disablePulse1_rate (s : State) : (s.disablePulse1).rate = s.rate := rfl
@[simp] theorem disablePulse1_pending (s : State) : (s.disablePulse1).pending = s.pending := rfl
@[simp] theorem disablePulse1_ccarry (s : State) : (s.disablePulse1).ccarry = s.ccarry := rfl
@[simp] theorem disablePulse1_scarry (s : State) : (s.disablePulse1).scarry = s.scarry := rfl
@[simp] theorem disablePulse1_pcmCap (s : State) : (s.disablePulse1).pcmCap = s.pcmCap := rfl
@[simp] theorem disablePulse1_pcm (s : State) : (s.disablePulse1).pcm = s.pcm := rfl
@[simp] theorem disablePulse1_port (s : State) : (s.disablePulse1).port = s.port := rfl
@[simp] theorem disablePulse1_responses (s : State) : (s.disablePulse1).responses = s.responses := rfl

-- State.invalidate
@[simp] theorem invalidate_pulse1 (s : State) : (s.invalidate).pulse1 = s.pulse1 := rfl
@[simp] theorem invalidate_pulse2 (s : State) : (s.invalidate).pulse2 = s.pulse2 := rfl
@[simp] theorem invalidate_wave (s : State) : (s.invalidate).wave = s.wave := rfl
@[simp] theorem invalidate_noise (s : State) : (s.invalidate).noise = s.noise := rfl
@[simp] theorem invalidate_sweep (s : State) : (s.invalidate).sweep = s.sweep := rfl
@[simp] theorem invalidate_chen (s : State) : (s.invalidate).chen = s.chen := rfl
@[simp] theorem invalidate_pan (s : State) : (s.invalidate).pan = s.pan := rfl
@[simp] theorem invalidate_mixen (s : State) : (s.invalidate).mixen = s.mixen := rfl
@[simp] theorem invalidate_mvol (s : State) : (s.invalidate).mvol = s.mvol := rfl
@[simp] theorem invalidate_fps (s : State) : (s.invalidate).fps = s.fps := rfl
@[simp] theorem invalidate_rate (s : State) : (s.invalidate).rate = s.rate := rfl
@[simp] theorem invalidate_pending (s : State) : (s.invalidate).pending = true := rfl
@[simp] theorem invalidate_ccarry (s : State) : (s.invalidate).ccarry = s.ccarry := rfl
@[simp] theorem invalidate_scarry (s : State) : (s.invalidate).scarry = s.scarry := rfl
@[simp] theorem invalidate_pcmCap (s : State) : (s.invalidate).pcmCap = s.pcmCap := rfl
@[simp] theorem invalidate_pcm (s : State) : (s.invalidate).pcm = [] := rfl
@[simp] theorem invalidate_port (s : State) : (s.invalidate).port = s.port := rfl
@[simp] theorem invalidate_responses (s : State) : (s.invalidate).responses = s.responses := rfl

-- powerOnValues
@[simp] theorem powerOnValues_pulse1 (p : Config.Params) (s : State) : (powerOnValues p s).pulse1 = (State.powerOn p).pulse1 := rfl
@[simp] theorem powerOnValues_pulse2 (p : Config.Params) (s : State) : (powerOnValues p s).pulse2 = (State.powerOn p).pulse2 := rfl
@[simp] theorem powerOnValues_wave (p : Config.Params) (s : State) : (powerOnValues p s).wave = (State.powerOn p).wave := rfl
@[simp] theorem powerOnValues_noise (p : Config.Params) (s : State) : (powerOnValues p s).noise = (State.powerOn p).noise := rfl
@[simp] theorem powerOnValues_sweep (p : Config.Params) (s : State) : (powerOnValues p s).sweep = (State.powerOn p).sweep := rfl
@[simp] theorem powerOnValues_chen (p : Config.Params) (s : State) : (powerOnValues p s).chen = (State.powerOn p).chen := rfl
@[simp] theorem powerOnValues_pan (p : Config.Params) (s : State) : (powerOnValues p s).pan = (State.powerOn p).pan := rfl
@[simp] theorem powerOnValues_mixen (p : Config.Params) (s : State) : (powerOnValues p s).mixen = (State.powerOn p).mixen := rfl
@[simp] theorem powerOnValues_mvol (p : Config.Params) (s : State) : (powerOnValues p s).mvol = (State.powerOn p).mvol := rfl
@[simp] theorem powerOnValues_fps (p : Config.Params) (s : State) : (powerOnValues p s).fps = s.fps := rfl
@[simp] theorem powerOnValues_rate (p : Config.Params) (s : State) : (powerOnValues p s).rate = s.rate := rfl
@[simp] theorem powerOnValues_pending (p : Config.Params) (s : State) : (powerOnValues p s).pending = s.pending := rfl
@[simp] theorem powerOnValues_ccarry (p : Config.Params) (s : State) : (powerOnValues p s).ccarry = (State.powerOn p).ccarry := rfl
@[simp] theorem powerOnValues_scarry (p : Config.Params) (s : State) : (powerOnValues p s).scarry = (State.powerOn p).scarry := rfl
@[simp] theorem powerOnValues_pcmCap (p : Config.Params) (s : State) : (powerOnValues p s).pcmCap = s.pcmCap := rfl
@[simp] theorem powerOnValues_pcm (p : Config.Params) (s : State) : (powerOnValues p s).pcm = (State.powerOn p).pcm := rfl
@[simp] theorem powerOnValues_port (p : Config.Params) (s : State) : (powerOnValues p s).port = s.port := rfl
@[simp] theorem powerOnValues_responses (p : Config.Params) (s : State) : (powerOnValues p s).responses = s.responses := rfl

-- carryFrame
@[simp] theorem carryFrame_pulse1 (p : Config.Params) (s : State) : (carryFrame p s).pulse1 = s.pulse1 := rfl
@[simp] theorem carryFrame_pulse2 (p : Config.Params) (s : State) : (carryFrame p s).pulse2 = s.pulse2 := rfl
@[simp] theorem carryFrame_wave (p : Config.Params) (s : State) : (carryFrame p s).wave = s.wave := rfl
@[simp] theorem carryFrame_noise (p : Config.Params) (s : State) : (carryFrame p s).noise = s.noise := rfl
@[simp] theorem carryFrame_sweep (p : Config.Params) (s : State) : (carryFrame p s).sweep = s.sweep := rfl
@[simp] theorem carryFrame_chen (p : Config.Params) (s : State) : (carryFrame p s).chen = s.chen := rfl
@[simp] theorem carryFrame_pan (p : Config.Params) (s : State) : (carryFrame p s).pan = s.pan := rfl
@[simp] theorem carryFrame_mixen (p : Config.Params) (s : State) : (carryFrame p s).mixen = s.mixen := rfl
@[simp] theorem carryFrame_mvol (p : Config.Params) (s : State) : (carryFrame p s).mvol = s.mvol := rfl
@[simp] theorem carryFrame_fps (p : Config.Params) (s : State) : (carryFrame p s).fps = s.fps := rfl
@[simp] theorem carryFrame_rate (p : Config.Params) (s : State) : (carryFrame p s).rate = s.rate := rfl
@[simp] theorem carryFrame_pending (p : Config.Params) (s : State) : (carryFrame p s).pending = s.pending := rfl
@[simp] theorem carryFrame_ccarry (p : Config.Params) (s : State) : (carryFrame p s).ccarry = fracPart (cyclesPerFrame p s + s.ccarry) := rfl
@[simp] theorem carryFrame_scarry (p : Config.Params) (s : State) : (carryFrame p s).scarry = fracPart (samplesPerFrame s + s.scarry) := rfl
@[simp] theorem carryFrame_pcmCap (p : Config.Params) (s : State) : (carryFrame p s).pcmCap = s.pcmCap := rfl
@[simp] theorem carryFrame_pcm (p : Config.Params) (s : State) : (carryFrame p s).pcm = s.pcm := rfl
@[simp] theorem carryFrame_port (p : Config.Params) (s : State) : (carryFrame p s).port = s.port := rfl
@[simp] theorem carryFrame_responses (p : Config.Params) (s : State) : (carryFrame p s).responses = s.responses := rfl

-- sweepWriteBack
@[simp] theorem sweepWriteBack_pulse1 (n : Nat) (s : State) : (sweepWriteBack n s).pulse1 = { s.pulse1 with freq := BitVec.ofNat 11 n } := rfl
@[simp] theorem sweepWriteBack_pulse2 (n : Nat) (s : State) : (sweepWriteBack n s).pulse2 = s.pulse2 := rfl
@[simp] theorem sweepWriteBack_wave (n : Nat) (s : State) : (sweepWriteBack n s).wave = s.wave := rfl
@[simp] theorem sweepWriteBack_noise (n : Nat) (s : State) : (sweepWriteBack n s).noise = s.noise := rfl
@[simp] theorem sweepWriteBack_sweep (n : Nat) (s : State) : (sweepWriteBack n s).sweep = { s.sweep with shadow := BitVec.ofNat 11 n } := rfl
@[simp] theorem sweepWriteBack_chen (n : Nat) (s : State) : (sweepWriteBack n s).chen = s.chen := rfl
@[simp] theorem sweepWriteBack_pan (n : Nat) (s : State) : (sweepWriteBack n s).pan = s.pan := rfl
@[simp] theorem sweepWriteBack_mixen (n : Nat) (s : State) : (sweepWriteBack n s).mixen = s.mixen := rfl
@[simp] theorem sweepWriteBack_mvol (n : Nat) (s : State) : (sweepWriteBack n s).mvol = s.mvol := rfl
@[simp] theorem sweepWriteBack_fps (n : Nat) (s : State) : (sweepWriteBack n s).fps = s.fps := rfl
@[simp] theorem sweepWriteBack_rate (n : Nat) (s : State) : (sweepWriteBack n s).rate = s.rate := rfl
@[simp] theorem sweepWriteBack_pending (n : Nat) (s : State) : (sweepWriteBack n s).pending = s.pending := rfl
@[simp] theorem sweepWriteBack_ccarry (n : Nat) (s : State) : (sweepWriteBack n s).ccarry = s.ccarry := rfl
@[simp] theorem sweepWriteBack_scarry (n : Nat) (s : State) : (sweepWriteBack n s).scarry = s.scarry := rfl
@[simp] theorem sweepWriteBack_pcmCap (n : Nat) (s : State) : (sweepWriteBack n s).pcmCap = s.pcmCap := rfl
@[simp] theorem sweepWriteBack_pcm (n : Nat) (s : State) : (sweepWriteBack n s).pcm = s.pcm := rfl
@[simp] theorem sweepWriteBack_port (n : Nat) (s : State) : (sweepWriteBack n s).port = s.port := rfl
@[simp] theorem sweepWriteBack_responses (n : Nat) (s : State) : (sweepWriteBack n s).responses = s.responses := rfl

-- envTick1
@[simp] theorem envTick1_pulse1 (p : Config.Params) (s : State) : (envTick1 p s).pulse1 = { s.pulse1 with env := s.pulse1.env.tick p } := rfl
@[simp] theorem envTick1_pulse2 (p : Config.Params) (s : State) : (envTick1 p s).pulse2 = s.pulse2 := rfl
@[simp] theorem envTick1_wave (p : Config.Params) (s : State) : (envTick1 p s).wave = s.wave := rfl
@[simp] theorem envTick1_noise (p : Config.Params) (s : State) : (envTick1 p s).noise = s.noise := rfl
@[simp] theorem envTick1_sweep (p : Config.Params) (s : State) : (envTick1 p s).sweep = s.sweep := rfl
@[simp] theorem envTick1_chen (p : Config.Params) (s : State) : (envTick1 p s).chen = s.chen := rfl
@[simp] theorem envTick1_pan (p : Config.Params) (s : State) : (envTick1 p s).pan = s.pan := rfl
@[simp] theorem envTick1_mixen (p : Config.Params) (s : State) : (envTick1 p s).mixen = s.mixen := rfl
@[simp] theorem envTick1_mvol (p : Config.Params) (s : State) : (envTick1 p s).mvol = s.mvol := rfl
@[simp] theorem envTick1_fps (p : Config.Params) (s : State) : (envTick1 p s).fps = s.fps := rfl
@[simp] theorem envTick1_rate (p : Config.Params) (s : State) : (envTick1 p s).rate = s.rate := rfl
@[simp] theorem envTick1_pending (p : Config.Params) (s : State) : (envTick1 p s).pending = s.pending := rfl
@[simp] theorem envTick1_ccarry (p : Config.Params) (s : State) : (envTick1 p s).ccarry = s.ccarry := rfl
@[simp] theorem envTick1_scarry (p : Config.Params) (s : State) : (envTick1 p s).scarry = s.scarry := rfl
@[simp] theorem envTick1_pcmCap (p : Config.Params) (s : State) : (envTick1 p s).pcmCap = s.pcmCap := rfl
@[simp] theorem envTick1_pcm (p : Config.Params) (s : State) : (envTick1 p s).pcm = s.pcm := rfl
@[simp] theorem envTick1_port (p : Config.Params) (s : State) : (envTick1 p s).port = s.port := rfl
@[simp] theorem envTick1_responses (p : Config.Params) (s : State) : (envTick1 p s).responses = s.responses := rfl

-- envTick2
@[simp] theorem envTick2_pulse1 (p : Config.Params) (s : State) : (envTick2 p s).pulse1 = s.pulse1 := rfl
@[simp] theorem envTick2_pulse2 (p : Config.Params) (s : State) : (envTick2 p s).pulse2 = { s.pulse2 with env := s.pulse2.env.tick p } := rfl
@[simp] theorem envTick2_wave (p : Config.Params) (s : State) : (envTick2 p s).wave = s.wave := rfl
@[simp] theorem envTick2_noise (p : Config.Params) (s : State) : (envTick2 p s).noise = s.noise := rfl
@[simp] theorem envTick2_sweep (p : Config.Params) (s : State) : (envTick2 p s).sweep = s.sweep := rfl
@[simp] theorem envTick2_chen (p : Config.Params) (s : State) : (envTick2 p s).chen = s.chen := rfl
@[simp] theorem envTick2_pan (p : Config.Params) (s : State) : (envTick2 p s).pan = s.pan := rfl
@[simp] theorem envTick2_mixen (p : Config.Params) (s : State) : (envTick2 p s).mixen = s.mixen := rfl
@[simp] theorem envTick2_mvol (p : Config.Params) (s : State) : (envTick2 p s).mvol = s.mvol := rfl
@[simp] theorem envTick2_fps (p : Config.Params) (s : State) : (envTick2 p s).fps = s.fps := rfl
@[simp] theorem envTick2_rate (p : Config.Params) (s : State) : (envTick2 p s).rate = s.rate := rfl
@[simp] theorem envTick2_pending (p : Config.Params) (s : State) : (envTick2 p s).pending = s.pending := rfl
@[simp] theorem envTick2_ccarry (p : Config.Params) (s : State) : (envTick2 p s).ccarry = s.ccarry := rfl
@[simp] theorem envTick2_scarry (p : Config.Params) (s : State) : (envTick2 p s).scarry = s.scarry := rfl
@[simp] theorem envTick2_pcmCap (p : Config.Params) (s : State) : (envTick2 p s).pcmCap = s.pcmCap := rfl
@[simp] theorem envTick2_pcm (p : Config.Params) (s : State) : (envTick2 p s).pcm = s.pcm := rfl
@[simp] theorem envTick2_port (p : Config.Params) (s : State) : (envTick2 p s).port = s.port := rfl
@[simp] theorem envTick2_responses (p : Config.Params) (s : State) : (envTick2 p s).responses = s.responses := rfl

-- envTick4
@[simp] theorem envTick4_pulse1 (p : Config.Params) (s : State) : (envTick4 p s).pulse1 = s.pulse1 := rfl
@[simp] theorem envTick4_pulse2 (p : Config.Params) (s : State) : (envTick4 p s).pulse2 = s.pulse2 := rfl
@[simp] theorem envTick4_wave (p : Config.Params) (s : State) : (envTick4 p s).wave = s.wave := rfl
@[simp] theorem envTick4_noise (p : Config.Params) (s : State) : (envTick4 p s).noise = { s.noise with env := s.noise.env.tick p } := rfl
@[simp] theorem envTick4_sweep (p : Config.Params) (s : State) : (envTick4 p s).sweep = s.sweep := rfl
@[simp] theorem envTick4_chen (p : Config.Params) (s : State) : (envTick4 p s).chen = s.chen := rfl
@[simp] theorem envTick4_pan (p : Config.Params) (s : State) : (envTick4 p s).pan = s.pan := rfl
@[simp] theorem envTick4_mixen (p : Config.Params) (s : State) : (envTick4 p s).mixen = s.mixen := rfl
@[simp] theorem envTick4_mvol (p : Config.Params) (s : State) : (envTick4 p s).mvol = s.mvol := rfl
@[simp] theorem envTick4_fps (p : Config.Params) (s : State) : (envTick4 p s).fps = s.fps := rfl
@[simp] theorem envTick4_rate (p : Config.Params) (s : State) : (envTick4 p s).rate = s.rate := rfl
@[simp] theorem envTick4_pending (p : Config.Params) (s : State) : (envTick4 p s).pending = s.pending := rfl
@[simp] theorem envTick4_ccarry (p : Config.Params) (s : State) : (envTick4 p s).ccarry = s.ccarry := rfl
@[simp] theorem envTick4_scarry (p : Config.Params) (s : State) : (envTick4 p s).scarry = s.scarry := rfl
@[simp] theorem envTick4_pcmCap (p : Config.Params) (s : State) : (envTick4 p s).pcmCap = s.pcmCap := rfl
@[simp] theorem envTick4_pcm (p : Config.Params) (s : State) : (envTick4 p s).pcm = s.pcm := rfl
@[simp] theorem envTick4_port (p : Config.Params) (s : State) : (envTick4 p s).port = s.port := rfl
@[simp] theorem envTick4_responses (p : Config.Params) (s : State) : (envTick4 p s).responses = s.responses := rfl

-- setFreq1
@[simp] theorem setFreq1_pulse1 (data : BitVec 11) (s : State) : (setFreq1 data s).pulse1 = { s.pulse1 with freq := data } := rfl
@[simp] theorem setFreq1_pulse2 (data : BitVec 11) (s : State) : (setFreq1 data s).pulse2 = s.pulse2 := rfl
@[simp] theorem setFreq1_wave (data : BitVec 11) (s : State) : (setFreq1 data s).wave = s.wave := rfl
@[simp] theorem setFreq1_noise (data : BitVec 11) (s : State) : (setFreq1 data s).noise = s.noise := rfl
@[simp] theorem setFreq1_sweep (data : BitVec 11) (s : State) : (setFreq1 data s).sweep = s.sweep := rfl
@[simp] theorem setFreq1_chen (data : BitVec 11) (s : State) : (setFreq1 data s).chen = s.chen := rfl
@[simp] theorem setFreq1_pan (data : BitVec 11) (s : State) : (setFreq1 data s).pan = s.pan := rfl
@[simp] theorem setFreq1_mixen (data : BitVec 11) (s : State) : (setFreq1 data s).mixen = s.mixen := rfl
@[simp] theorem setFreq1_mvol (data : BitVec 11) (s : State) : (setFreq1 data s).mvol = s.mvol := rfl
@[simp] theorem setFreq1_fps (data : BitVec 11) (s : State) : (setFreq1 data s).fps = s.fps := rfl
@[simp] theorem setFreq1_rate (data : BitVec 11) (s : State) : (setFreq1 data s).rate = s.rate := rfl
@[simp] theorem setFreq1_pending (data : BitVec 11) (s : State) : (setFreq1 data s).pending = s.pending := rfl
@[simp] theorem setFreq1_ccarry (data : BitVec 11) (s : State) : (setFreq1 data s).ccarry = s.ccarry := rfl
@[simp] theorem setFreq1_scarry (data : BitVec 11) (s : State) : (setFreq1 data s).scarry = s.scarry := rfl
@[simp] theorem setFreq1_pcmCap (data : BitVec 11) (s : State) : (setFreq1 data s).pcmCap = s.pcmCap := rfl
@[simp] theorem setFreq1_pcm (data : BitVec 11) (s : State) : (setFreq1 data s).pcm = s.pcm := rfl
@[simp] theorem setFreq1_port (data : BitVec 11) (s : State) : (setFreq1 data s).port = s.port := rfl
@[simp] theorem setFreq1_responses (data : BitVec 11) (s : State) : (setFreq1 data s).responses = s.responses := rfl

-- setDuty1
@[simp] theorem setDuty1_pulse1 (data : BitVec 2) (s : State) : (setDuty1 data s).pulse1 = { s.pulse1 with duty := data } := rfl
@[simp] theorem setDuty1_pulse2 (data : BitVec 2) (s : State) : (setDuty1 data s).pulse2 = s.pulse2 := rfl
@[simp] theorem setDuty1_wave (data : BitVec 2) (s : State) : (setDuty1 data s).wave = s.wave := rfl
@[simp] theorem setDuty1_noise (data : BitVec 2) (s : State) : (setDuty1 data s).noise = s.noise := rfl
@[simp] theorem setDuty1_sweep (data : BitVec 2) (s : State) : (setDuty1 data s).sweep = s.sweep := rfl
@[simp] theorem setDuty1_chen (data : BitVec 2) (s : State) : (setDuty1 data s).chen = s.chen := rfl
@[simp] theorem setDuty1_pan (data : BitVec 2) (s : State) : (setDuty1 data s).pan = s.pan := rfl
@[simp] theorem setDuty1_mixen (data : BitVec 2) (s : State) : (setDuty1 data s).mixen = s.mixen := rfl
@[simp] theorem setDuty1_mvol (data : BitVec 2) (s : State) : (setDuty1 data s).mvol = s.mvol := rfl
@[simp] theorem setDuty1_fps (data : BitVec 2) (s : State) : (setDuty1 data s).fps = s.fps := rfl
@[simp] theorem setDuty1_rate (data : BitVec 2) (s : State) : (setDuty1 data s).rate = s.rate := rfl
@[simp] theorem setDuty1_pending (data : BitVec 2) (s : State) : (setDuty1 data s).pending = s.pending := rfl
@[simp] theorem setDuty1_ccarry (data : BitVec 2) (s : State) : (setDuty1 data s).ccarry = s.ccarry := rfl
@[simp] theorem setDuty1_scarry (data : BitVec 2) (s : State) : (setDuty1 data s).scarry = s.scarry := rfl
@[simp] theorem setDuty1_pcmCap (data : BitVec 2) (s : State) : (setDuty1 data s).pcmCap = s.pcmCap := rfl
@[simp] theorem setDuty1_pcm (data : BitVec 2) (s : State) : (setDuty1 data s).pcm = s.pcm := rfl
@[simp] theorem setDuty1_port (data : BitVec 2) (s : State) : (setDuty1 data s).port = s.port := rfl
@[simp] theorem setDuty1_responses (data : BitVec 2) (s : State) : (setDuty1 data s).responses = s.responses := rfl

-- setEnv1
@[simp] theorem setEnv1_pulse1 (data : BitVec 8) (s : State) : (setEnv1 data s).pulse1 = { s.pulse1 with env := { s.pulse1.env with reg := data } } := rfl
@[simp] theorem setEnv1_pulse2 (data : BitVec 8) (s : State) : (setEnv1 data s).pulse2 = s.pulse2 := rfl
@[simp] theorem setEnv1_wave (data : BitVec 8) (s : State) : (setEnv1 data s).wave = s.wave := rfl
@[simp] theorem setEnv1_noise (data : BitVec 8) (s : State) : (setEnv1 data s).noise = s.noise := rfl
@[simp] theorem setEnv1_sweep (data : BitVec 8) (s : State) : (setEnv1 data s).sweep = s.sweep := rfl
@[simp] theorem setEnv1_chen (data : BitVec 8) (s : State) : (setEnv1 data s).chen = s.chen := rfl
@[simp] theorem setEnv1_pan (data : BitVec 8) (s : State) : (setEnv1 data s).pan = s.pan := rfl
@[simp] theorem setEnv1_mixen (data : BitVec 8) (s : State) : (setEnv1 data s).mixen = s.mixen := rfl
@[simp] theorem setEnv1_mvol (data : BitVec 8) (s : State) : (setEnv1 data s).mvol = s.mvol := rfl
@[simp] theorem setEnv1_fps (data : BitVec 8) (s : State) : (setEnv1 data s).fps = s.fps := rfl
@[simp] theorem setEnv1_rate (data : BitVec 8) (s : State) : (setEnv1 data s).rate = s.rate := rfl
@[simp] theorem setEnv1_pending (data : BitVec 8) (s : State) : (setEnv1 data s).pending = s.pending := rfl
@[simp] theorem setEnv1_ccarry (data : BitVec 8) (s : State) : (setEnv1 data s).ccarry = s.ccarry := rfl
@[simp] theorem setEnv1_scarry (data : BitVec 8) (s : State) : (setEnv1 data s).scarry = s.scarry := rfl
@[simp] theorem setEnv1_pcmCap (data : BitVec 8) (s : State) : (setEnv1 data s).pcmCap = s.pcmCap := rfl
@[simp] theorem setEnv1_pcm (data : BitVec 8) (s : State) : (setEnv1 data s).pcm = s.pcm := rfl
@[simp] theorem setEnv1_port (data : BitVec 8) (s : State) : (setEnv1 data s).port = s.port := rfl
@[simp] theorem setEnv1_responses (data : BitVec 8) (s : State) : (setEnv1 data s).responses = s.responses := rfl

-- setPan1
@[simp] theorem setPan1_pulse1 (data : BitVec 2) (s : State) : (setPan1 data s).pulse1 = s.pulse1 := rfl
@[simp] theorem setPan1_pulse2 (data : BitVec 2) (s : State) : (setPan1 data s).pulse2 = s.pulse2 := rfl
@[simp] theorem setPan1_wave (data : BitVec 2) (s : State) : (setPan1 data s).wave = s.wave := rfl
@[simp] theorem setPan1_noise (data : BitVec 2) (s : State) : (setPan1 data s).noise = s.noise := rfl
@[simp] theorem setPan1_sweep (data : BitVec 2) (s : State) : (setPan1 data s).sweep = s.sweep := rfl
@[simp] theorem setPan1_chen (data : BitVec 2) (s : State) : (setPan1 data s).chen = s.chen := rfl
@[simp] theorem setPan1_pan (data : BitVec 2) (s : State) : (setPan1 data s).pan = s.pan.set .pulse1 data := rfl
@[simp] theorem setPan1_mixen (data : BitVec 2) (s : State) : (setPan1 data s).mixen = s.mixen := rfl
@[simp] theorem setPan1_mvol (data : BitVec 2) (s : State) : (setPan1 data s).mvol = s.mvol := rfl
@[simp] theorem setPan1_fps (data : BitVec 2) (s : State) : (setPan1 data s).fps = s.fps := rfl
@[simp] theorem setPan1_rate (data : BitVec 2) (s : State) : (setPan1 data s).rate = s.rate := rfl
@[simp] theorem setPan1_pending (data : BitVec 2) (s : State) : (setPan1 data s).pending = s.pending := rfl
@[simp] theorem setPan1_ccarry (data : BitVec 2) (s : State) : (setPan1 data s).ccarry = s.ccarry := rfl
@[simp] theorem setPan1_scarry (data : BitVec 2) (s : State) : (setPan1 data s).scarry = s.scarry := rfl
@[simp] theorem setPan1_pcmCap (data : BitVec 2) (s : State) : (setPan1 data s).pcmCap = s.pcmCap := rfl
@[simp] theorem setPan1_pcm (data : BitVec 2) (s : State) : (setPan1 data s).pcm = s.pcm := rfl
@[simp] theorem setPan1_port (data : BitVec 2) (s : State) : (setPan1 data s).port = s.port := rfl
@[simp] theorem setPan1_responses (data : BitVec 2) (s : State) : (setPan1 data s).responses = s.responses := rfl

-- setMixen1
@[simp] theorem setMixen1_pulse1 (data : BitVec 1) (s : State) : (setMixen1 data s).pulse1 = s.pulse1 := rfl
@[simp] theorem setMixen1_pulse2 (data : BitVec 1) (s : State) : (setMixen1 data s).pulse2 = s.pulse2 := rfl
@[simp] theorem setMixen1_wave (data : BitVec 1) (s : State) : (setMixen1 data s).wave = s.wave := rfl
@[simp] theorem setMixen1_noise (data : BitVec 1) (s : State) : (setMixen1 data s).noise = s.noise := rfl
@[simp] theorem setMixen1_sweep (data : BitVec 1) (s : State) : (setMixen1 data s).sweep = s.sweep := rfl
@[simp] theorem setMixen1_chen (data : BitVec 1) (s : State) : (setMixen1 data s).chen = s.chen := rfl
@[simp] theorem setMixen1_pan (data : BitVec 1) (s : State) : (setMixen1 data s).pan = s.pan := rfl
@[simp] theorem setMixen1_mixen (data : BitVec 1) (s : State) : (setMixen1 data s).mixen = s.mixen.set .pulse1 data := rfl
@[simp] theorem setMixen1_mvol (data : BitVec 1) (s : State) : (setMixen1 data s).mvol = s.mvol := rfl
@[simp] theorem setMixen1_fps (data : BitVec 1) (s : State) : (setMixen1 data s).fps = s.fps := rfl
@[simp] theorem setMixen1_rate (data : BitVec 1) (s : State) : (setMixen1 data s).rate = s.rate := rfl
@[simp] theorem setMixen1_pending (data : BitVec 1) (s : State) : (setMixen1 data s).pending = s.pending := rfl
@[simp] theorem setMixen1_ccarry (data : BitVec 1) (s : State) : (setMixen1 data s).ccarry = s.ccarry := rfl
@[simp] theorem setMixen1_scarry (data : BitVec 1) (s : State) : (setMixen1 data s).scarry = s.scarry := rfl
@[simp] theorem setMixen1_pcmCap (data : BitVec 1) (s : State) : (setMixen1 data s).pcmCap = s.pcmCap := rfl
@[simp] theorem setMixen1_pcm (data : BitVec 1) (s : State) : (setMixen1 data s).pcm = s.pcm := rfl
@[simp] theorem setMixen1_port (data : BitVec 1) (s : State) : (setMixen1 data s).port = s.port := rfl
@[simp] theorem setMixen1_responses (data : BitVec 1) (s : State) : (setMixen1 data s).responses = s.responses := rfl

-- setSweep
@[simp] theorem setSweep_pulse1 (data : BitVec 7) (s : State) : (setSweep data s).pulse1 = s.pulse1 := rfl
@[simp] theorem setSweep_pulse2 (data : BitVec 7) (s : State) : (setSweep data s).pulse2 = s.pulse2 := rfl
@[simp] theorem setSweep_wave (data : BitVec 7) (s : State) : (setSweep data s).wave = s.wave := rfl
@[simp] theorem setSweep_noise (data : BitVec 7) (s : State) : (setSweep data s).noise = s.noise := rfl
@[simp] theorem setSweep_sweep (data : BitVec 7) (s : State) : (setSweep data s).sweep = { s.sweep with reg := data } := rfl
@[simp] theorem setSweep_chen (data : BitVec 7) (s : State) : (setSweep data s).chen = s.chen := rfl
@[simp] theorem setSweep_pan (data : BitVec 7) (s : State) : (setSweep data s).pan = s.pan := rfl
@[simp] theorem setSweep_mixen (data : BitVec 7) (s : State) : (setSweep data s).mixen = s.mixen := rfl
@[simp] theorem setSweep_mvol (data : BitVec 7) (s : State) : (setSweep data s).mvol = s.mvol := rfl
@[simp] theorem setSweep_fps (data : BitVec 7) (s : State) : (setSweep data s).fps = s.fps := rfl
@[simp] theorem setSweep_rate (data : BitVec 7) (s : State) : (setSweep data s).rate = s.rate := rfl
@[simp] theorem setSweep_pending (data : BitVec 7) (s : State) : (setSweep data s).pending = s.pending := rfl
@[simp] theorem setSweep_ccarry (data : BitVec 7) (s : State) : (setSweep data s).ccarry = s.ccarry := rfl
@[simp] theorem setSweep_scarry (data : BitVec 7) (s : State) : (setSweep data s).scarry = s.scarry := rfl
@[simp] theorem setSweep_pcmCap (data : BitVec 7) (s : State) : (setSweep data s).pcmCap = s.pcmCap := rfl
@[simp] theorem setSweep_pcm (data : BitVec 7) (s : State) : (setSweep data s).pcm = s.pcm := rfl
@[simp] theorem setSweep_port (data : BitVec 7) (s : State) : (setSweep data s).port = s.port := rfl
@[simp] theorem setSweep_responses (data : BitVec 7) (s : State) : (setSweep data s).responses = s.responses := rfl

-- setFreq2
@[simp] theorem setFreq2_pulse1 (data : BitVec 11) (s : State) : (setFreq2 data s).pulse1 = s.pulse1 := rfl
@[simp] theorem setFreq2_pulse2 (data : BitVec 11) (s : State) : (setFreq2 data s).pulse2 = { s.pulse2 with freq := data } := rfl
@[simp] theorem setFreq2_wave (data : BitVec 11) (s : State) : (setFreq2 data s).wave = s.wave := rfl
@[simp] theorem setFreq2_noise (data : BitVec 11) (s : State) : (setFreq2 data s).noise = s.noise := rfl
@[simp] theorem setFreq2_sweep (data : BitVec 11) (s : State) : (setFreq2 data s).sweep = s.sweep := rfl
@[simp] theorem setFreq2_chen (data : BitVec 11) (s : State) : (setFreq2 data s).chen = s.chen := rfl
@[simp] theorem setFreq2_pan (data : BitVec 11) (s : State) : (setFreq2 data s).pan = s.pan := rfl
@[simp] theorem setFreq2_mixen (data : BitVec 11) (s : State) : (setFreq2 data s).mixen = s.mixen := rfl
@[simp] theorem setFreq2_mvol (data : BitVec 11) (s : State) : (setFreq2 data s).mvol = s.mvol := rfl
@[simp] theorem setFreq2_fps (data : BitVec 11) (s : State) : (setFreq2 data s).fps = s.fps := rfl
@[simp] theorem setFreq2_rate (data : BitVec 11) (s : State) : (setFreq2 data s).rate = s.rate := rfl
@[simp] theorem setFreq2_pending (data : BitVec 11) (s : State) : (setFreq2 data s).pending = s.pending := rfl
@[simp] theorem setFreq2_ccarry (data : BitVec 11) (s : State) : (setFreq2 data s).ccarry = s.ccarry := rfl
@[simp] theorem setFreq2_scarry (data : BitVec 11) (s : State) : (setFreq2 data s).scarry = s.scarry := rfl
@[simp] theorem setFreq2_pcmCap (data : BitVec 11) (s : State) : (setFreq2 data s).pcmCap = s.pcmCap := rfl
@[simp] theorem setFreq2_pcm (data : BitVec 11) (s : State) : (setFreq2 data s).pcm = s.pcm := rfl
@[simp] theorem setFreq2_port (data : BitVec 11) (s : State) : (setFreq2 data s).port = s.port := rfl
@[simp] theorem setFreq2_responses (data : BitVec 11) (s : State) : (setFreq2 data s).responses = s.responses := rfl

-- setDuty2
@[simp] theorem setDuty2_pulse1 (data : BitVec 2) (s : State) : (setDuty2 data s).pulse1 = s.pulse1 := rfl
@[simp] theorem setDuty2_pulse2 (data : BitVec 2) (s : State) : (setDuty2 data s).pulse2 = { s.pulse2 with duty := data } := rfl
@[simp] theorem setDuty2_wave (data : BitVec 2) (s : State) : (setDuty2 data s).wave = s.wave := rfl
@[simp] theorem setDuty2_noise (data : BitVec 2) (s : State) : (setDuty2 data s).noise = s.noise := rfl
@[simp] theorem setDuty2_sweep (data : BitVec 2) (s : State) : (setDuty2 data s).sweep = s.sweep := rfl
@[simp] theorem setDuty2_chen (data : BitVec 2) (s : State) : (setDuty2 data s).chen = s.chen := rfl
@[simp] theorem setDuty2_pan (data : BitVec 2) (s : State) : (setDuty2 data s).pan = s.pan := rfl
@[simp] theorem setDuty2_mixen (data : BitVec 2) (s : State) : (setDuty2 data s).mixen = s.mixen := rfl
@[simp] theorem setDuty2_mvol (data : BitVec 2) (s : State) : (setDuty2 data s).mvol = s.mvol := rfl
@[simp] theorem setDuty2_fps (data : BitVec 2) (s : State) : (setDuty2 data s).fps = s.fps := rfl
@[simp] theorem setDuty2_rate (data : BitVec 2) (s : State) : (setDuty2 data s).rate = s.rate := rfl
@[simp] theorem setDuty2_pending (data : BitVec 2) (s : State) : (setDuty2 data s).pending = s.pending := rfl
@[simp] theorem setDuty2_ccarry (data : BitVec 2) (s : State) : (setDuty2 data s).ccarry = s.ccarry := rfl
@[simp] theorem setDuty2_scarry (data : BitVec 2) (s : State) : (setDuty2 data s).scarry = s.scarry := rfl
@[simp] theorem setDuty2_pcmCap (data : BitVec 2) (s : State) : (setDuty2 data s).pcmCap = s.pcmCap := rfl
@[simp] theorem setDuty2_pcm (data : BitVec 2) (s : State) : (setDuty2 data s).pcm = s.pcm := rfl
@[simp] theorem setDuty2_port (data : BitVec 2) (s : State) : (setDuty2 data s).port = s.port := rfl
@[simp] theorem setDuty2_responses (data : BitVec 2) (s : State) : (setDuty2 data s).responses = s.responses := rfl

-- setEnv2
@[simp] theorem setEnv2_pulse1 (data : BitVec 8) (s : State) : (setEnv2 data s).pulse1 = s.pulse1 := rfl
@[simp] theorem setEnv2_pulse2 (data : BitVec 8) (s : State) : (setEnv2 data s).pulse2 = { s.pulse2 with env := { s.pulse2.env with reg := data } } := rfl
@[simp] theorem setEnv2_wave (data : BitVec 8) (s : State) : (setEnv2 data s).wave = s.wave := rfl
@[simp] theorem setEnv2_noise (data : BitVec 8) (s : State) : (setEnv2 data s).noise = s.noise := rfl
@[simp] theorem setEnv2_sweep (data : BitVec 8) (s : State) : (setEnv2 data s).sweep = s.sweep := rfl
@[simp] theorem setEnv2_chen (data : BitVec 8) (s : State) : (setEnv2 data s).chen = s.chen := rfl
@[simp] theorem setEnv2_pan (data : BitVec 8) (s : State) : (setEnv2 data s).pan = s.pan := rfl
@[simp] theorem setEnv2_mixen (data : BitVec 8) (s : State) : (setEnv2 data s).mixen = s.mixen := rfl
@[simp] theorem setEnv2_mvol (data : BitVec 8) (s : State) : (setEnv2 data s).mvol = s.mvol := rfl
@[simp] theorem setEnv2_fps (data : BitVec 8) (s : State) : (setEnv2 data s).fps = s.fps := rfl
@[simp] theorem setEnv2_rate (data : BitVec 8) (s : State) : (setEnv2 data s).rate = s.rate := rfl
@[simp] theorem setEnv2_pending (data : BitVec 8) (s : State) : (setEnv2 data s).pending = s.pending := rfl
@[simp] theorem setEnv2_ccarry (data : BitVec 8) (s : State) : (setEnv2 data s).ccarry = s.ccarry := rfl
@[simp] theorem setEnv2_scarry (data : BitVec 8) (s : State) : (setEnv2 data s).scarry = s.scarry := rfl
@[simp] theorem setEnv2_pcmCap (data : BitVec 8) (s : State) : (setEnv2 data s).pcmCap = s.pcmCap := rfl
@[simp] theorem setEnv2_pcm (data : BitVec 8) (s : State) : (setEnv2 data s).pcm = s.pcm := rfl
@[simp] theorem setEnv2_port (data : BitVec 8) (s : State) : (setEnv2 data s).port = s.port := rfl
@[simp] theorem setEnv2_responses (data : BitVec 8) (s : State) : (setEnv2 data s).responses = s.responses := rfl

-- setPan2
@[simp] theorem setPan2_pulse1 (data : BitVec 2) (s : State) : (setPan2 data s).pulse1 = s.pulse1 := rfl
@[simp] theorem setPan2_pulse2 (data : BitVec 2) (s : State) : (setPan2 data s).pulse2 = s.pulse2 := rfl
@[simp] theorem setPan2_wave (data : BitVec 2) (s : State) : (setPan2 data s).wave = s.wave := rfl
@[simp] theorem setPan2_noise (data : BitVec 2) (s : State) : (setPan2 data s).noise = s.noise := rfl
@[simp] theorem setPan2_sweep (data : BitVec 2) (s : State) : (setPan2 data s).sweep = s.sweep := rfl
@[simp] theorem setPan2_chen (data : BitVec 2) (s : State) : (setPan2 data s).chen = s.chen := rfl
@[simp] theorem setPan2_pan (data : BitVec 2) (s : State) : (setPan2 data s).pan = s.pan.set .pulse2 data := rfl
@[simp] theorem setPan2_mixen (data : BitVec 2) (s : State) : (setPan2 data s).mixen = s.mixen := rfl
@[simp] theorem setPan2_mvol (data : BitVec 2) (s : State) : (setPan2 data s).mvol = s.mvol := rfl
@[simp] theorem setPan2_fps (data : BitVec 2) (s : State) : (setPan2 data s).fps = s.fps := rfl
@[simp] theorem setPan2_rate (data : BitVec 2) (s : State) : (setPan2 data s).rate = s.rate := rfl
@[simp] theorem setPan2_pending (data : BitVec 2) (s : State) : (setPan2 data s).pending = s.pending := rfl
@[simp] theorem setPan2_ccarry (data : BitVec 2) (s : State) : (setPan2 data s).ccarry = s.ccarry := rfl
@[simp] theorem setPan2_scarry (data : BitVec 2) (s : State) : (setPan2 data s).scarry = s.scarry := rfl
@[simp] theorem setPan2_pcmCap (data : BitVec 2) (s : State) : (setPan2 data s).pcmCap = s.pcmCap := rfl
@[simp] theorem setPan2_pcm (data : BitVec 2) (s : State) : (setPan2 data s).pcm = s.pcm := rfl
@[simp] theorem setPan2_port (data : BitVec 2) (s : State) : (setPan2 data s).port = s.port := rfl
@[simp] theorem setPan2_responses (data : BitVec 2) (s : State) : (setPan2 data s).responses = s.responses := rfl

-- setMixen2
@[simp] theorem setMixen2_pulse1 (data : BitVec 1) (s : State) : (setMixen2 data s).pulse1 = s.pulse1 := rfl
@[simp] theorem setMixen2_pulse2 (data : BitVec 1) (s : State) : (setMixen2 data s).pulse2 = s.pulse2 := rfl
@[simp] theorem setMixen2_wave (data : BitVec 1) (s : State) : (setMixen2 data s).wave = s.wave := rfl
@[simp] theorem setMixen2_noise (data : BitVec 1) (s : State) : (setMixen2 data s).noise = s.noise := rfl
@[simp] theorem setMixen2_sweep (data : BitVec 1) (s : State) : (setMixen2 data s).sweep = s.sweep := rfl
@[simp] theorem setMixen2_chen (data : BitVec 1) (s : State) : (setMixen2 data s).chen = s.chen := rfl
@[simp] theorem setMixen2_pan (data : BitVec 1) (s : State) : (setMixen2 data s).pan = s.pan := rfl
@[simp] theorem setMixen2_mixen (data : BitVec 1) (s : State) : (setMixen2 data s).mixen = s.mixen.set .pulse2 data := rfl
@[simp] theorem setMixen2_mvol (data : BitVec 1) (s : State) : (setMixen2 data s).mvol = s.mvol := rfl
@[simp] theorem setMixen2_fps (data : BitVec 1) (s : State) : (setMixen2 data s).fps = s.fps := rfl
@[simp] theorem setMixen2_rate (data : BitVec 1) (s : State) : (setMixen2 data s).rate = s.rate := rfl
@[simp] theorem setMixen2_pending (data : BitVec 1) (s : State) : (setMixen2 data s).pending = s.pending := rfl
@[simp] theorem setMixen2_ccarry (data : BitVec 1) (s : State) : (setMixen2 data s).ccarry = s.ccarry := rfl
@[simp] theorem setMixen2_scarry (data : BitVec 1) (s : State) : (setMixen2 data s).scarry = s.scarry := rfl
@[simp] theorem setMixen2_pcmCap (data : BitVec 1) (s : State) : (setMixen2 data s).pcmCap = s.pcmCap := rfl
@[simp] theorem setMixen2_pcm (data : BitVec 1) (s : State) : (setMixen2 data s).pcm = s.pcm := rfl
@[simp] theorem setMixen2_port (data : BitVec 1) (s : State) : (setMixen2 data s).port = s.port := rfl
@[simp] theorem setMixen2_responses (data : BitVec 1) (s : State) : (setMixen2 data s).responses = s.responses := rfl

-- setFreq3
@[simp] theorem setFreq3_pulse1 (data : BitVec 11) (s : State) : (setFreq3 data s).pulse1 = s.pulse1 := rfl
@[simp] theorem setFreq3_pulse2 (data : BitVec 11) (s : State) : (setFreq3 data s).pulse2 = s.pulse2 := rfl
@[simp] theorem setFreq3_wave (data : BitVec 11) (s : State) : (setFreq3 data s).wave = { s.wave with freq := data } := rfl
@[simp] theorem setFreq3_noise (data : BitVec 11) (s : State) : (setFreq3 data s).noise = s.noise := rfl
@[simp] theorem setFreq3_sweep (data : BitVec 11) (s : State) : (setFreq3 data s).sweep = s.sweep := rfl
@[simp] theorem setFreq3_chen (data : BitVec 11) (s : State) : (setFreq3 data s).chen = s.chen := rfl
@[simp] theorem setFreq3_pan (data : BitVec 11) (s : State) : (setFreq3 data s).pan = s.pan := rfl
@[simp] theorem setFreq3_mixen (data : BitVec 11) (s : State) : (setFreq3 data s).mixen = s.mixen := rfl
@[simp] theorem setFreq3_mvol (data : BitVec 11) (s : State) : (setFreq3 data s).mvol = s.mvol := rfl
@[simp] theorem setFreq3_fps (data : BitVec 11) (s : State) : (setFreq3 data s).fps = s.fps := rfl
@[simp] theorem setFreq3_rate (data : BitVec 11) (s : State) : (setFreq3 data s).rate = s.rate := rfl
@[simp] theorem setFreq3_pending (data : BitVec 11) (s : State) : (setFreq3 data s).pending = s.pending := rfl
@[simp] theorem setFreq3_ccarry (data : BitVec 11) (s : State) : (setFreq3 data s).ccarry = s.ccarry := rfl
@[simp] theorem setFreq3_scarry (data : BitVec 11) (s : State) : (setFreq3 data s).scarry = s.scarry := rfl
@[simp] theorem setFreq3_pcmCap (data : BitVec 11) (s : State) : (setFreq3 data s).pcmCap = s.pcmCap := rfl
@[simp] theorem setFreq3_pcm (data : BitVec 11) (s : State) : (setFreq3 data s).pcm = s.pcm := rfl
@[simp] theorem setFreq3_port (data : BitVec 11) (s : State) : (setFreq3 data s).port = s.port := rfl
@[simp] theorem setFreq3_responses (data : BitVec 11) (s : State) : (setFreq3 data s).responses = s.responses := rfl

-- setWvol
@[simp] theorem setWvol_pulse1 (data : BitVec 2) (s : State) : (setWvol data s).pulse1 = s.pulse1 := rfl
@[simp] theorem setWvol_pulse2 (data : BitVec 2) (s : State) : (setWvol data s).pulse2 = s.pulse2 := rfl
@[simp] theorem setWvol_wave (data : BitVec 2) (s : State) : (setWvol data s).wave = { s.wave with wvol := data } := rfl
@[simp] theorem setWvol_noise (data : BitVec 2) (s : State) : (setWvol data s).noise = s.noise := rfl
@[simp] theorem setWvol_sweep (data : BitVec 2) (s : State) : (setWvol data s).sweep = s.sweep := rfl
@[simp] theorem setWvol_chen (data : BitVec 2) (s : State) : (setWvol data s).chen = s.chen := rfl
@[simp] theorem setWvol_pan (data : BitVec 2) (s : State) : (setWvol data s).pan = s.pan := rfl
@[simp] theorem setWvol_mixen (data : BitVec 2) (s : State) : (setWvol data s).mixen = s.mixen := rfl
@[simp] theorem setWvol_mvol (data : BitVec 2) (s : State) : (setWvol data s).mvol = s.mvol := rfl
@[simp] theorem setWvol_fps (data : BitVec 2) (s : State) : (setWvol data s).fps = s.fps := rfl
@[simp] theorem setWvol_rate (data : BitVec 2) (s : State) : (setWvol data s).rate = s.rate := rfl
@[simp] theorem setWvol_pending (data : BitVec 2) (s : State) : (setWvol data s).pending = s.pending := rfl
@[simp] theorem setWvol_ccarry (data : BitVec 2) (s : State) : (setWvol data s).ccarry = s.ccarry := rfl
@[simp] theorem setWvol_scarry (data : BitVec 2) (s : State) : (setWvol data s).scarry = s.scarry := rfl
@[simp] theorem setWvol_pcmCap (data : BitVec 2) (s : State) : (setWvol data s).pcmCap = s.pcmCap := rfl
@[simp] theorem setWvol_pcm (data : BitVec 2) (s : State) : (setWvol data s).pcm = s.pcm := rfl
@[simp] theorem setWvol_port (data : BitVec 2) (s : State) : (setWvol data s).port = s.port := rfl
@[simp] theorem setWvol_responses (data : BitVec 2) (s : State) : (setWvol data s).responses = s.responses := rfl

-- setPan3
@[simp] theorem setPan3_pulse1 (data : BitVec 2) (s : State) : (setPan3 data s).pulse1 = s.pulse1 := rfl
@[simp] theorem setPan3_pulse2 (data : BitVec 2) (s : State) : (setPan3 data s).pulse2 = s.pulse2 := rfl
@[simp] theorem setPan3_wave (data : BitVec 2) (s : State) : (setPan3 data s).wave = s.wave := rfl
@[simp] theorem setPan3_noise (data : BitVec 2) (s : State) : (setPan3 data s).noise = s.noise := rfl
@[simp] theorem setPan3_sweep (data : BitVec 2) (s : State) : (setPan3 data s).sweep = s.sweep := rfl
@[simp] theorem setPan3_chen (data : BitVec 2) (s : State) : (setPan3 data s).chen = s.chen := rfl
@[simp] theorem setPan3_pan (data : BitVec 2) (s : State) : (setPan3 data s).pan = s.pan.set .wave data := rfl
@[simp] theorem setPan3_mixen (data : BitVec 2) (s : State) : (setPan3 data s).mixen = s.mixen := rfl
@[simp] theorem setPan3_mvol (data : BitVec 2) (s : State) : (setPan3 data s).mvol = s.mvol := rfl
@[simp] theorem setPan3_fps (data : BitVec 2) (s : State) : (setPan3 data s).fps = s.fps := rfl
@[simp] theorem setPan3_rate (data : BitVec 2) (s : State) : (setPan3 data s).rate = s.rate := rfl
@[simp] theorem setPan3_pending (data : BitVec 2) (s : State) : (setPan3 data s).pending = s.pending := rfl
@[simp] theorem setPan3_ccarry (data : BitVec 2) (s : State) : (setPan3 data s).ccarry = s.ccarry := rfl
@[simp] theorem setPan3_scarry (data : BitVec 2) (s : State) : (setPan3 data s).scarry = s.scarry := rfl
@[simp] theorem setPan3_pcmCap (data : BitVec 2) (s : State) : (setPan3 data s).pcmCap = s.pcmCap := rfl
@[simp] theorem setPan3_pcm (data : BitVec 2) (s : State) : (setPan3 data s).pcm = s.pcm := rfl
@[simp] theorem setPan3_port (data : BitVec 2) (s : State) : (setPan3 data s).port = s.port := rfl
@[simp] theorem setPan3_responses (data : BitVec 2) (s : State) : (setPan3 data s).responses = s.responses := rfl

-- setMixen3
@[simp] theorem setMixen3_pulse1 (data : BitVec 1) (s : State) : (setMixen3 data s).pulse1 = s.pulse1 := rfl
@[simp] theorem setMixen3_pulse2 (data : BitVec 1) (s : State) : (setMixen3 data s).pulse2 = s.pulse2 := rfl
@[simp] theorem setMixen3_wave (data : BitVec 1) (s : State) : (setMixen3 data s).wave = s.wave := rfl
@[simp] theorem setMixen3_noise (data : BitVec 1) (s : State) : (setMixen3 data s).noise = s.noise := rfl
@[simp] theorem setMixen3_sweep (data : BitVec 1) (s : State) : (setMixen3 data s).sweep = s.sweep := rfl
@[simp] theorem setMixen3_chen (data : BitVec 1) (s : State) : (setMixen3 data s).chen = s.chen := rfl
@[simp] theorem setMixen3_pan (data : BitVec 1) (s : State) : (setMixen3 data s).pan = s.pan := rfl
@[simp] theorem setMixen3_mixen (data : BitVec 1) (s : State) : (setMixen3 data s).mixen = s.mixen.set .wave data := rfl
@[simp] theorem setMixen3_mvol (data : BitVec 1) (s : State) : (setMixen3 data s).mvol = s.mvol := rfl
@[simp] theorem setMixen3_fps (data : BitVec 1) (s : State) : (setMixen3 data s).fps = s.fps := rfl
@[simp] theorem setMixen3_rate (data : BitVec 1) (s : State) : (setMixen3 data s).rate = s.rate := rfl
@[simp] theorem setMixen3_pending (data : BitVec 1) (s : State) : (setMixen3 data s).pending = s.pending := rfl
@[simp] theorem setMixen3_ccarry (data : BitVec 1) (s : State) : (setMixen3 data s).ccarry = s.ccarry := rfl
@[simp] theorem setMixen3_scarry (data : BitVec 1) (s : State) : (setMixen3 data s).scarry = s.scarry := rfl
@[simp] theorem setMixen3_pcmCap (data : BitVec 1) (s : State) : (setMixen3 data s).pcmCap = s.pcmCap := rfl
@[simp] theorem setMixen3_pcm (data : BitVec 1) (s : State) : (setMixen3 data s).pcm = s.pcm := rfl
@[simp] theorem setMixen3_port (data : BitVec 1) (s : State) : (setMixen3 data s).port = s.port := rfl
@[simp] theorem setMixen3_responses (data : BitVec 1) (s : State) : (setMixen3 data s).responses = s.responses := rfl

-- setNctrl
@[simp] theorem setNctrl_pulse1 (data : BitVec 8) (s : State) : (setNctrl data s).pulse1 = s.pulse1 := rfl
@[simp] theorem setNctrl_pulse2 (data : BitVec 8) (s : State) : (setNctrl data s).pulse2 = s.pulse2 := rfl
@[simp] theorem setNctrl_wave (data : BitVec 8) (s : State) : (setNctrl data s).wave = s.wave := rfl
@[simp] theorem setNctrl_noise (data : BitVec 8) (s : State) : (setNctrl data s).noise = { s.noise with nctrl := data } := rfl
@[simp] theorem setNctrl_sweep (data : BitVec 8) (s : State) : (setNctrl data s).sweep = s.sweep := rfl
@[simp] theorem setNctrl_chen (data : BitVec 8) (s : State) : (setNctrl data s).chen = s.chen := rfl
@[simp] theorem setNctrl_pan (data : BitVec 8) (s : State) : (setNctrl data s).pan = s.pan := rfl
@[simp] theorem setNctrl_mixen (data : BitVec 8) (s : State) : (setNctrl data s).mixen = s.mixen := rfl
@[simp] theorem setNctrl_mvol (data : BitVec 8) (s : State) : (setNctrl data s).mvol = s.mvol := rfl
@[simp] theorem setNctrl_fps (data : BitVec 8) (s : State) : (setNctrl data s).fps = s.fps := rfl
@[simp] theorem setNctrl_rate (data : BitVec 8) (s : State) : (setNctrl data s).rate = s.rate := rfl
@[simp] theorem setNctrl_pending (data : BitVec 8) (s : State) : (setNctrl data s).pending = s.pending := rfl
@[simp] theorem setNctrl_ccarry (data : BitVec 8) (s : State) : (setNctrl data s).ccarry = s.ccarry := rfl
@[simp] theorem setNctrl_scarry (data : BitVec 8) (s : State) : (setNctrl data s).scarry = s.scarry := rfl
@[simp] theorem setNctrl_pcmCap (data : BitVec 8) (s : State) : (setNctrl data s).pcmCap = s.pcmCap := rfl
@[simp] theorem setNctrl_pcm (data : BitVec 8) (s : State) : (setNctrl data s).pcm = s.pcm := rfl
@[simp] theorem setNctrl_port (data : BitVec 8) (s : State) : (setNctrl data s).port = s.port := rfl
@[simp] theorem setNctrl_responses (data : BitVec 8) (s : State) : (setNctrl data s).responses = s.responses := rfl

-- setEnv4
@[simp] theorem setEnv4_pulse1 (data : BitVec 8) (s : State) : (setEnv4 data s).pulse1 = s.pulse1 := rfl
@[simp] theorem setEnv4_pulse2 (data : BitVec 8) (s : State) : (setEnv4 data s).pulse2 = s.pulse2 := rfl
@[simp] theorem setEnv4_wave (data : BitVec 8) (s : State) : (setEnv4 data s).wave = s.wave := rfl
@[simp] theorem setEnv4_noise (data : BitVec 8) (s : State) : (setEnv4 data s).noise = { s.noise with env := { s.noise.env with reg := data } } := rfl
@[simp] theorem setEnv4_sweep (data : BitVec 8) (s : State) : (setEnv4 data s).sweep = s.sweep := rfl
@[simp] theorem setEnv4_chen (data : BitVec 8) (s : State) : (setEnv4 data s).chen = s.chen := rfl
@[simp] theorem setEnv4_pan (data : BitVec 8) (s : State) : (setEnv4 data s).pan = s.pan := rfl
@[simp] theorem setEnv4_mixen (data : BitVec 8) (s : State) : (setEnv4 data s).mixen = s.mixen := rfl
@[simp] theorem setEnv4_mvol (data : BitVec 8) (s : State) : (setEnv4 data s).mvol = s.mvol := rfl
@[simp] theorem setEnv4_fps (data : BitVec 8) (s : State) : (setEnv4 data s).fps = s.fps := rfl
@[simp] theorem setEnv4_rate (data : BitVec 8) (s : State) : (setEnv4 data s).rate = s.rate := rfl
@[simp] theorem setEnv4_pending (data : BitVec 8) (s : State) : (setEnv4 data s).pending = s.pending := rfl
@[simp] theorem setEnv4_ccarry (data : BitVec 8) (s : State) : (setEnv4 data s).ccarry = s.ccarry := rfl
@[simp] theorem setEnv4_scarry (data : BitVec 8) (s : State) : (setEnv4 data s).scarry = s.scarry := rfl
@[simp] theorem setEnv4_pcmCap (data : BitVec 8) (s : State) : (setEnv4 data s).pcmCap = s.pcmCap := rfl
@[simp] theorem setEnv4_pcm (data : BitVec 8) (s : State) : (setEnv4 data s).pcm = s.pcm := rfl
@[simp] theorem setEnv4_port (data : BitVec 8) (s : State) : (setEnv4 data s).port = s.port := rfl
@[simp] theorem setEnv4_responses (data : BitVec 8) (s : State) : (setEnv4 data s).responses = s.responses := rfl

-- setPan4
@[simp] theorem setPan4_pulse1 (data : BitVec 2) (s : State) : (setPan4 data s).pulse1 = s.pulse1 := rfl
@[simp] theorem setPan4_pulse2 (data : BitVec 2) (s : State) : (setPan4 data s).pulse2 = s.pulse2 := rfl
@[simp] theorem setPan4_wave (data : BitVec 2) (s : State) : (setPan4 data s).wave = s.wave := rfl
@[simp] theorem setPan4_noise (data : BitVec 2) (s : State) : (setPan4 data s).noise = s.noise := rfl
@[simp] theorem setPan4_sweep (data : BitVec 2) (s : State) : (setPan4 data s).sweep = s.sweep := rfl
@[simp] theorem setPan4_chen (data : BitVec 2) (s : State) : (setPan4 data s).chen = s.chen := rfl
@[simp] theorem setPan4_pan (data : BitVec 2) (s : State) : (setPan4 data s).pan = s.pan.set .noise data := rfl
@[simp] theorem setPan4_mixen (data : BitVec 2) (s : State) : (setPan4 data s).mixen = s.mixen := rfl
@[simp] theorem setPan4_mvol (data : BitVec 2) (s : State) : (setPan4 data s).mvol = s.mvol := rfl
@[simp] theorem setPan4_fps (data : BitVec 2) (s : State) : (setPan4 data s).fps = s.fps := rfl
@[simp] theorem setPan4_rate (data : BitVec 2) (s : State) : (setPan4 data s).rate = s.rate := rfl
@[simp] theorem setPan4_pending (data : BitVec 2) (s : State) : (setPan4 data s).pending = s.pending := rfl
@[simp] theorem setPan4_ccarry (data : BitVec 2) (s : State) : (setPan4 data s).ccarry = s.ccarry := rfl
@[simp] theorem setPan4_scarry (data : BitVec 2) (s : State) : (setPan4 data s).scarry = s.scarry := rfl
@[simp] theorem setPan4_pcmCap (data : BitVec 2) (s : State) : (setPan4 data s).pcmCap = s.pcmCap := rfl
@[simp] theorem setPan4_pcm (data : BitVec 2) (s : State) : (setPan4 data s).pcm = s.pcm := rfl
@[simp] theorem setPan4_port (data : BitVec 2) (s : State) : (setPan4 data s).port = s.port := rfl
@[simp] theorem setPan4_responses (data : BitVec 2) (s : State) : (setPan4 data s).responses = s.responses := rfl

-- setMixen4
@[simp] theorem setMixen4_pulse1 (data : BitVec 1) (s : State) : (setMixen4 data s).pulse1 = s.pulse1 := rfl
@[simp] theorem setMixen4_pulse2 (data : BitVec 1) (s : State) : (setMixen4 data s).pulse2 = s.pulse2 := rfl
@[simp] theorem setMixen4_wave (data : BitVec 1) (s : State) : (setMixen4 data s).wave = s.wave := rfl
@[simp] theorem setMixen4_noise (data : BitVec 1) (s : State) : (setMixen4 data s).noise = s.noise := rfl
@[simp] theorem setMixen4_sweep (data : BitVec 1) (s : State) : (setMixen4 data s).sweep = s.sweep := rfl
@[simp] theorem setMixen4_chen (data : BitVec 1) (s : State) : (setMixen4 data s).chen = s.chen := rfl
@[simp] theorem setMixen4_pan (data : BitVec 1) (s : State) : (setMixen4 data s).pan = s.pan := rfl
@[simp] theorem setMixen4_mixen (data : BitVec 1) (s : State) : (setMixen4 data s).mixen = s.mixen.set .noise data := rfl
@[simp] theorem setMixen4_mvol (data : BitVec 1) (s : State) : (setMixen4 data s).mvol = s.mvol := rfl
@[simp] theorem setMixen4_fps (data : BitVec 1) (s : State) : (setMixen4 data s).fps = s.fps := rfl
@[simp] theorem setMixen4_rate (data : BitVec 1) (s : State) : (setMixen4 data s).rate = s.rate := rfl
@[simp] theorem setMixen4_pending (data : BitVec 1) (s : State) : (setMixen4 data s).pending = s.pending := rfl
@[simp] theorem setMixen4_ccarry (data : BitVec 1) (s : State) : (setMixen4 data s).ccarry = s.ccarry := rfl
@[simp] theorem setMixen4_scarry (data : BitVec 1) (s : State) : (setMixen4 data s).scarry = s.scarry := rfl
@[simp] theorem setMixen4_pcmCap (data : BitVec 1) (s : State) : (setMixen4 data s).pcmCap = s.pcmCap := rfl
@[simp] theorem setMixen4_pcm (data : BitVec 1) (s : State) : (setMixen4 data s).pcm = s.pcm := rfl
@[simp] theorem setMixen4_port (data : BitVec 1) (s : State) : (setMixen4 data s).port = s.port := rfl
@[simp] theorem setMixen4_responses (data : BitVec 1) (s : State) : (setMixen4 data s).responses = s.responses := rfl

-- setMvol
@[simp] theorem setMvol_pulse1 (left right : BitVec 3) (s : State) : (setMvol left right s).pulse1 = s.pulse1 := rfl
@[simp] theorem setMvol_pulse2 (left right : BitVec 3) (s : State) : (setMvol left right s).pulse2 = s.pulse2 := rfl
@[simp] theorem setMvol_wave (left right : BitVec 3) (s : State) : (setMvol left right s).wave = s.wave := rfl
@[simp] theorem setMvol_noise (left right : BitVec 3) (s : State) : (setMvol left right s).noise = s.noise := rfl
@[simp] theorem setMvol_sweep (left right : BitVec 3) (s : State) : (setMvol left right s).sweep = s.sweep := rfl
@[simp] theorem setMvol_chen (left right : BitVec 3) (s : State) : (setMvol left right s).chen = s.chen := rfl
@[simp] theorem setMvol_pan (left right : BitVec 3) (s : State) : (setMvol left right s).pan = s.pan := rfl
@[simp] theorem setMvol_mixen (left right : BitVec 3) (s : State) : (setMvol left right s).mixen = s.mixen := rfl
@[simp] theorem setMvol_mvol (left right : BitVec 3) (s : State) : (setMvol left right s).mvol = mvolByte left right := rfl
@[simp] theorem setMvol_fps (left right : BitVec 3) (s : State) : (setMvol left right s).fps = s.fps := rfl
@[simp] theorem setMvol_rate (left right : BitVec 3) (s : State) : (setMvol left right s).rate = s.rate := rfl
@[simp] theorem setMvol_pending (left right : BitVec 3) (s : State) : (setMvol left right s).pending = s.pending := rfl
@[simp] theorem setMvol_ccarry (left right : BitVec 3) (s : State) : (setMvol left right s).ccarry = s.ccarry := rfl
@[simp] theorem setMvol_scarry (left right : BitVec 3) (s : State) : (setMvol left right s).scarry = s.scarry := rfl
@[simp] theorem setMvol_pcmCap (left right : BitVec 3) (s : State) : (setMvol left right s).pcmCap = s.pcmCap := rfl
@[simp] theorem setMvol_pcm (left right : BitVec 3) (s : State) : (setMvol left right s).pcm = s.pcm := rfl
@[simp] theorem setMvol_port (left right : BitVec 3) (s : State) : (setMvol left right s).port = s.port := rfl
@[simp] theorem setMvol_responses (left right : BitVec 3) (s : State) : (setMvol left right s).responses = s.responses := rfl

-- setWaveByte
@[simp] theorem setWaveByte_pulse1 (i : BitVec 4) (data : BitVec 8) (s : State) : (setWaveByte i data s).pulse1 = s.pulse1 := rfl
@[simp] theorem setWaveByte_pulse2 (i : BitVec 4) (data : BitVec 8) (s : State) : (setWaveByte i data s).pulse2 = s.pulse2 := rfl
@[simp] theorem setWaveByte_wave (i : BitVec 4) (data : BitVec 8) (s : State) : (setWaveByte i data s).wave = { s.wave with ram := Memory.write s.wave.ram i.toNat data } := rfl
@[simp] theorem setWaveByte_noise (i : BitVec 4) (data : BitVec 8) (s : State) : (setWaveByte i data s).noise = s.noise := rfl
@[simp] theorem setWaveByte_sweep (i : BitVec 4) (data : BitVec 8) (s : State) : (setWaveByte i data s).sweep = s.sweep := rfl
@[simp] theorem setWaveByte_chen (i : BitVec 4) (data : BitVec 8) (s : State) : (setWaveByte i data s).chen = s.chen := rfl
@[simp] theorem setWaveByte_pan (i : BitVec 4) (data : BitVec 8) (s : State) : (setWaveByte i data s).pan = s.pan := rfl
@[simp] theorem setWaveByte_mixen (i : BitVec 4) (data : BitVec 8) (s : State) : (setWaveByte i data s).mixen = s.mixen := rfl
@[simp] theorem setWaveByte_mvol (i : BitVec 4) (data : BitVec 8) (s : State) : (setWaveByte i data s).mvol = s.mvol := rfl
@[simp] theorem setWaveByte_fps (i : BitVec 4) (data : BitVec 8) (s : State) : (setWaveByte i data s).fps = s.fps := rfl
@[simp] theorem setWaveByte_rate (i : BitVec 4) (data : BitVec 8) (s : State) : (setWaveByte i data s).rate = s.rate := rfl
@[simp] theorem setWaveByte_pending (i : BitVec 4) (data : BitVec 8) (s : State) : (setWaveByte i data s).pending = s.pending := rfl
@[simp] theorem setWaveByte_ccarry (i : BitVec 4) (data : BitVec 8) (s : State) : (setWaveByte i data s).ccarry = s.ccarry := rfl
@[simp] theorem setWaveByte_scarry (i : BitVec 4) (data : BitVec 8) (s : State) : (setWaveByte i data s).scarry = s.scarry := rfl
@[simp] theorem setWaveByte_pcmCap (i : BitVec 4) (data : BitVec 8) (s : State) : (setWaveByte i data s).pcmCap = s.pcmCap := rfl
@[simp] theorem setWaveByte_pcm (i : BitVec 4) (data : BitVec 8) (s : State) : (setWaveByte i data s).pcm = s.pcm := rfl
@[simp] theorem setWaveByte_port (i : BitVec 4) (data : BitVec 8) (s : State) : (setWaveByte i data s).port = s.port := rfl
@[simp] theorem setWaveByte_responses (i : BitVec 4) (data : BitVec 8) (s : State) : (setWaveByte i data s).responses = s.responses := rfl

end Sys2Proof.Machine
end

