-- ==== Sys2Proof/Laws/Ops.lean ====
section
/-! SUPPORT. The shared operations once: floor and fraction, `raise`, `use()`, and what a command that answers can
do. -/

namespace Sys2Proof.Machine

theorem floorNat_eq (q : Rat) : floorNat q = ⌊q⌋₊ := rfl

theorem fracPart_eq (q : Rat) : fracPart q = q - (⌊q⌋₊ : Rat) := rfl

theorem floorNat_add_fracPart (q : Rat) : (floorNat q : Rat) + fracPart q = q := by
  unfold fracPart
  ring

theorem isCarry_fracPart {q : Rat} (h : 0 ≤ q) : IsCarry (fracPart q) := by
  rw [fracPart_eq]
  have h1 := Nat.floor_le h
  have h2 := Nat.lt_floor_add_one q
  exact ⟨by linarith, by linarith⟩

theorem isCarry_zero : IsCarry 0 := ⟨le_refl _, by norm_num⟩

/-- A fraction carried into the next amount loses nothing: the whole parts add up. -/
theorem floorNat_carry {q c : Rat} (hc : 0 ≤ fracPart q + c) :
    floorNat q + floorNat (fracPart q + c) = floorNat (q + c) := by
  have h : q + c = (fracPart q + c) + (floorNat q : Rat) := by
    have := floorNat_add_fracPart q
    linarith
  rw [h, floorNat_eq (fracPart q + c + _), Nat.floor_add_natCast hc, floorNat_eq (fracPart q + c)]
  omega

/-- A fraction carried into the next amount loses nothing: the fraction is that of the sum. -/
theorem fracPart_carry {q c : Rat} (hc : 0 ≤ fracPart q + c) : fracPart (fracPart q + c) = fracPart (q + c) := by
  have h1 := floorNat_add_fracPart (fracPart q + c)
  have h2 := floorNat_add_fracPart (q + c)
  have h3 := floorNat_add_fracPart q
  have h4 : (floorNat q : Rat) + (floorNat (fracPart q + c) : Rat) = (floorNat (q + c) : Rat) := by
    exact_mod_cast floorNat_carry hc
  linarith

/-- Under the default policy a command that cannot be performed faults (60_exceptions.md R220). -/
@[simp] theorem raise_default (f : Fault) (s : State) : raise Config.params f s = .fault f := rfl

theorem use_of_not_pending (p : Config.Params) {s : State} (h : s.pending = false) : use p s = s := by
  simp [use, h]

theorem use_of_pending (p : Config.Params) {s : State} (h : s.pending = true) :
    use p s = { powerOnValues p (resize s) with pending := false } := by simp [use, h]

theorem resize_eq (s : State) :
    resize s = { s with pcmCap := if s.configured then frameCapacity s else s.pcmCap } := by
  unfold resize
  split <;> rfl

@[simp] theorem use_pending (p : Config.Params) (s : State) : (use p s).pending = false := by
  unfold use
  split
  · rfl
  · simpa using ‹¬s.pending = true›

@[simp] theorem use_fps (p : Config.Params) (s : State) : (use p s).fps = s.fps := by
  unfold use
  split
  · simp [resize_eq]
  · rfl

@[simp] theorem use_rate (p : Config.Params) (s : State) : (use p s).rate = s.rate := by
  unfold use
  split
  · simp [resize_eq]
  · rfl

@[simp] theorem use_port (p : Config.Params) (s : State) : (use p s).port = s.port := by
  unfold use
  split
  · simp [resize_eq]
  · rfl

@[simp] theorem use_responses (p : Config.Params) (s : State) : (use p s).responses = s.responses := by
  unfold use
  split
  · simp [resize_eq]
  · rfl

@[simp] theorem use_configured (p : Config.Params) (s : State) : (use p s).configured = s.configured := by
  simp [State.configured]

/-- A second use does nothing. -/
@[simp] theorem use_use (p : Config.Params) (s : State) : use p (use p s) = use p s :=
  use_of_not_pending p (use_pending p s)

theorem item_respond (r : Word) (s : State) (x : Item) : item (s.respond r) x = item s x := by
  cases x <;> rfl

theorem answered_respond {s t : State} (r : Word) (hr : t.responses = s.responses) (hp : t.port = s.port) :
    Answered s (t.respond r) r := by simp [Answered, hr, hp]

theorem frame_refl (l : List Item) (s : State) : Frame l s s := fun _ _ => rfl

theorem frame_respond {l : List Item} {s t : State} (r : Word) (h : Frame l s t) : Frame l s (t.respond r) :=
  fun x hx => (item_respond r t x).trans (h x hx)

/-- The frame and the answer of a command that answers 0: it rests on what its effect does to the used state. -/
theorem perform0_spec {f : State → State} (s : State) (hr : (f (used s)).responses = s.responses)
    (hp : (f (used s)).port = s.port) :
    ∃ t, perform0 Config.params f s = .next t ∧ Answered s t 0 ∧ ∀ x, item t x = item (f (used s)) x :=
  ⟨_, rfl, answered_respond 0 hr hp, item_respond 0 _⟩

/-- A command that observes answers the value of the used state and changes nothing else. -/
theorem observe_spec (value : State → Word) (s : State) :
    ∃ t, observe Config.params value s = .next t ∧ Answered s t (value (used s)) ∧ Frame [] (used s) t :=
  ⟨_, rfl, answered_respond _ (use_responses _ s) (use_port _ s), frame_respond _ (frame_refl _ _)⟩

end Sys2Proof.Machine
end

