-- ==== Sys2Proof/Laws/Generators.lean ====
section
/-! SUPPORT. The generators: periods are positive, a step ends below the period, and stepping is additive
(41_generators.md R143, R147). -/

namespace Sys2Proof.Machine

theorem Pulse.period_pos (g : Pulse) : 0 < g.period := by
  have := g.freq.isLt
  unfold Pulse.period
  omega

theorem Wave.period_pos (g : Wave) : 0 < g.period := by
  have := g.freq.isLt
  unfold Wave.period
  omega

theorem Noise.period_pos {p : Config.Params} (h : ∀ i : Fin 8, 0 < p.drfTable[i]) (g : Noise) : 0 < g.period p := by
  unfold Noise.period
  rw [Nat.shiftLeft_eq]
  exact Nat.mul_pos (h ⟨_, (noiseDrf g.nctrl).isLt⟩) (Nat.two_pow_pos _)

theorem Timer.count_lt {period : Nat} (h : 0 < period) (n : Nat) (t : Timer) : (t.count period n).gcnt < period :=
  Nat.mod_lt _ h

@[simp] theorem Timer.count_drift (period n : Nat) (t : Timer) : (t.count period n).drift = t.drift := rfl
@[simp] theorem Timer.count_gcnt (period n : Nat) (t : Timer) : (t.count period n).gcnt = (t.gcnt + n) % period := rfl
@[simp] theorem Timer.carry_drift (c : Rat) (t : Timer) : (t.carry c).drift = fracPart (t.drift + c) := rfl
@[simp] theorem Timer.carry_gcnt (c : Rat) (t : Timer) : (t.carry c).gcnt = t.gcnt := rfl

/-- Counting `m` and then `n` cycles is counting `m + n`, whatever the counter was. -/
theorem Timer.count_count (period m n : Nat) (t : Timer) :
    (t.count period m).count period n = t.count period (m + n) := by
  simp only [Timer.count, Nat.mod_add_mod, Nat.add_assoc]

/-- The positions advanced add up. -/
theorem Timer.steps_steps {period : Nat} (h : 0 < period) (m n : Nat) (t : Timer) :
    t.steps period m + (t.count period m).steps period n = t.steps period (m + n) := by
  simp only [Timer.steps, Timer.count]
  conv_rhs => rw [← Nat.add_assoc, ← Nat.div_add_mod (t.gcnt + m) period, Nat.add_assoc, Nat.mul_add_div h]

theorem Pulse.wholeStep_wholeStep (m n : Nat) (g : Pulse) :
    (g.wholeStep m).wholeStep n = g.wholeStep (m + n) := by
  have h := g.period_pos
  simp only [Pulse.wholeStep, Pulse.period] at *
  rw [Timer.count_count, ← Timer.steps_steps h]
  congr 1
  apply BitVec.eq_of_toNat_eq
  simp only [BitVec.toNat_ofNat]
  omega

theorem Wave.wholeStep_wholeStep (m n : Nat) (g : Wave) : (g.wholeStep m).wholeStep n = g.wholeStep (m + n) := by
  have h := g.period_pos
  simp only [Wave.wholeStep, Wave.period] at *
  rw [Timer.count_count, ← Timer.steps_steps h]
  congr 1
  apply BitVec.eq_of_toNat_eq
  simp only [BitVec.toNat_ofNat]
  omega

theorem Noise.wholeStep_wholeStep {p : Config.Params} (hp : ∀ i : Fin 8, 0 < p.drfTable[i]) (m n : Nat) (g : Noise) :
    (g.wholeStep p m).wholeStep p n = g.wholeStep p (m + n) := by
  have h := g.period_pos hp
  simp only [Noise.wholeStep, Noise.period] at *
  rw [Timer.count_count, ← Timer.steps_steps h, Nat.add_comm (Timer.steps _ _ _), Function.iterate_add_apply]

/-- A step changes neither the carry nor what the step depends on, so a carry may be set before or after it. -/
theorem Pulse.carry_wholeStep (c : Rat) (n : Nat) (g : Pulse) :
    { g.wholeStep n with timer := (g.wholeStep n).timer.carry c } =
      ({ g with timer := g.timer.carry c } : Pulse).wholeStep n := rfl

/-- Two advances are one advance by the sum (R143): no cycle is lost between calls. -/
theorem Pulse.advance_advance {g : Pulse} {c d : Rat} (hg : IsCarry g.timer.drift) (hc : 0 ≤ c) (hd : 0 ≤ d) :
    (g.advance c).advance d = g.advance (c + d) := by
  have h : 0 ≤ fracPart (g.timer.drift + c) + d :=
    add_nonneg (isCarry_fracPart (add_nonneg hg.1 hc)).1 hd
  have e : g.timer.drift + (c + d) = g.timer.drift + c + d := by ring
  calc (g.advance c).advance d
      = (({ g with timer := { g.timer with drift := fracPart (fracPart (g.timer.drift + c) + d) } } : Pulse).wholeStep
          (floorNat (g.timer.drift + c))).wholeStep (floorNat (fracPart (g.timer.drift + c) + d)) := rfl
    _ = g.advance (c + d) := by
      rw [Pulse.wholeStep_wholeStep, floorNat_carry h, fracPart_carry h, ← e]
      rfl

theorem Wave.advance_advance {g : Wave} {c d : Rat} (hg : IsCarry g.timer.drift) (hc : 0 ≤ c) (hd : 0 ≤ d) :
    (g.advance c).advance d = g.advance (c + d) := by
  have h : 0 ≤ fracPart (g.timer.drift + c) + d :=
    add_nonneg (isCarry_fracPart (add_nonneg hg.1 hc)).1 hd
  have e : g.timer.drift + (c + d) = g.timer.drift + c + d := by ring
  calc (g.advance c).advance d
      = (({ g with timer := { g.timer with drift := fracPart (fracPart (g.timer.drift + c) + d) } } : Wave).wholeStep
          (floorNat (g.timer.drift + c))).wholeStep (floorNat (fracPart (g.timer.drift + c) + d)) := rfl
    _ = g.advance (c + d) := by
      rw [Wave.wholeStep_wholeStep, floorNat_carry h, fracPart_carry h, ← e]
      rfl

theorem Noise.advance_advance {p : Config.Params} (hp : ∀ i : Fin 8, 0 < p.drfTable[i]) {g : Noise} {c d : Rat}
    (hg : IsCarry g.timer.drift) (hc : 0 ≤ c) (hd : 0 ≤ d) :
    (g.advance p c).advance p d = g.advance p (c + d) := by
  have h : 0 ≤ fracPart (g.timer.drift + c) + d :=
    add_nonneg (isCarry_fracPart (add_nonneg hg.1 hc)).1 hd
  have e : g.timer.drift + (c + d) = g.timer.drift + c + d := by ring
  calc (g.advance p c).advance p d
      = (({ g with timer := { g.timer with drift := fracPart (fracPart (g.timer.drift + c) + d) } } : Noise).wholeStep p
          (floorNat (g.timer.drift + c))).wholeStep p (floorNat (fracPart (g.timer.drift + c) + d)) := rfl
    _ = g.advance p (c + d) := by
      rw [Noise.wholeStep_wholeStep hp, floorNat_carry h, fracPart_carry h, ← e]
      rfl

@[simp] theorem Pulse.advance_drift (c : Rat) (g : Pulse) :
    (g.advance c).timer.drift = fracPart (g.timer.drift + c) := rfl
@[simp] theorem Wave.advance_drift (c : Rat) (g : Wave) :
    (g.advance c).timer.drift = fracPart (g.timer.drift + c) := rfl
@[simp] theorem Noise.advance_drift (p : Config.Params) (c : Rat) (g : Noise) :
    (g.advance p c).timer.drift = fracPart (g.timer.drift + c) := rfl

/-- `stepAll` acts on the four generators and on nothing else (43_mixer_synth.md R204). -/
theorem stepAll_eq (p : Config.Params) (c : Rat) (s : State) :
    stepAll p c s = { s with
      pulse1 := s.pulse1.advance c, pulse2 := s.pulse2.advance c, wave := s.wave.advance c,
      noise := s.noise.advance p c } := rfl

/-- All four carries are in [0, 1). -/
abbrev Drifts (s : State) : Prop := ∀ ch, IsCarry (s.timer ch).drift

theorem drifts_stepAll {p : Config.Params} {c : Rat} (hc : 0 ≤ c) {s : State} (h : Drifts s) :
    Drifts (stepAll p c s) := by
  intro ch
  have h' := h ch
  cases ch <;> exact isCarry_fracPart (add_nonneg h'.1 hc)

/-- Two steps of all generators are one step by the sum. -/
theorem stepAll_stepAll {p : Config.Params} (hp : ∀ i : Fin 8, 0 < p.drfTable[i]) {c d : Rat} (hc : 0 ≤ c)
    (hd : 0 ≤ d) {s : State} (h : Drifts s) : stepAll p d (stepAll p c s) = stepAll p (c + d) s := by
  simp only [stepAll_eq]
  rw [Pulse.advance_advance (h .pulse1) hc hd, Pulse.advance_advance (h .pulse2) hc hd,
    Wave.advance_advance (h .wave) hc hd, Noise.advance_advance hp (h .noise) hc hd]

end Sys2Proof.Machine
end

