-- ==== Sys2Proof/Laws/Resampler.lean ====
section
/-! SUPPORT. Point sampling over any state whose amounts add up: N samples, sample k at its instant, and after the frame
the state of one step by W (43_mixer_synth.md R206). -/

namespace Sys2Proof.Machine

variable {σ : Type}

/-- The loop gives one sample per round. -/
@[simp] theorem sampleLoop_length (step : σ → σ) (look : σ → Sample) (n : Nat) (s : σ) :
    (sampleLoop step look n s).1.length = n := by
  induction n generalizing s with
  | zero => rfl
  | succ n ih => simp [sampleLoop, ih]

/-- Point sampling gives N samples. -/
@[simp] theorem pointSampling_length (step : Rat → σ → σ) (look : σ → Sample) (w n : Nat) (s : σ) :
    (pointSampling σ step look w n s).1.length = n := by
  unfold pointSampling
  split
  · simp [*]
  · simp

/-- A relation that every step extends holds between the states before and after point sampling. -/
theorem pointSampling_relates {r : σ → σ → Prop} (refl : ∀ s, r s s) (trans : ∀ s t u, r s t → r t u → r s u)
    {step : Rat → σ → σ} (h : ∀ c s, r s (step c s)) (look : σ → Sample) (w n : Nat) (s : σ) :
    r s (pointSampling σ step look w n s).2 := by
  have loop (c : Rat) (m : Nat) (s : σ) : r s (sampleLoop (step c) look m s).2 := by
    induction m generalizing s with
    | zero => exact refl s
    | succ m ih => exact trans _ _ _ (h c s) (ih _)
  unfold pointSampling
  split
  · exact h _ s
  · exact loop _ n s

variable {step : Rat → σ → σ} {inv : σ → Prop} (keeps : ∀ c u, 0 ≤ c → inv u → inv (step c u))
  (adds : ∀ c d u, 0 ≤ c → 0 ≤ d → inv u → step d (step c u) = step (c + d) u)
include keeps adds

/-- `n` rounds of `c` cycles, `n` not 0, leave the state of one step of `n * c` cycles. -/
theorem sampleLoop_state (look : σ → Sample) {c : Rat} (hc : 0 ≤ c) (n : Nat) {s : σ} (hs : inv s) :
    (sampleLoop (step c) look (n + 1) s).2 = step ((n + 1 : Nat) * c) s := by
  induction n generalizing s with
  | zero => simp [sampleLoop]
  | succ n ih =>
    calc (sampleLoop (step c) look (n + 1 + 1) s).2
        = (sampleLoop (step c) look (n + 1) (step c s)).2 := rfl
      _ = step ((n + 1 : Nat) * c) (step c s) := ih (keeps c s hc hs)
      _ = step (c + (n + 1 : Nat) * c) s := adds _ _ _ hc (by positivity) hs
      _ = step ((n + 1 + 1 : Nat) * c) s := by
        congr 1
        push_cast
        ring

/-- Sample `k`, counted from 0, is the look after `(k + 1) * c` cycles. -/
theorem sampleLoop_getElem (look : σ → Sample) {c : Rat} (hc : 0 ≤ c) (n k : Nat) (hk : k < n) {s : σ} (hs : inv s) :
    (sampleLoop (step c) look n s).1[k]? = some (look (step ((k + 1 : Nat) * c) s)) := by
  induction n generalizing s k with
  | zero => omega
  | succ n ih =>
    cases k with
    | zero => simp [sampleLoop]
    | succ k =>
      calc (sampleLoop (step c) look (n + 1) s).1[k + 1]?
          = (sampleLoop (step c) look n (step c s)).1[k]? := by simp [sampleLoop]
        _ = some (look (step ((k + 1 : Nat) * c) (step c s))) := ih k (by omega) (keeps c s hc hs)
        _ = some (look (step ((k + 1 + 1 : Nat) * c) s)) := by
          rw [adds _ _ _ hc (by positivity) hs]
          congr 3
          push_cast
          ring

/-- Point sampling leaves the state of one step by W. -/
theorem pointSampling_state (look : σ → Sample) (w n : Nat) {s : σ} (hs : inv s) :
    (pointSampling σ step look w n s).2 = step (w : Rat) s := by
  unfold pointSampling
  split
  · rfl
  · obtain ⟨m, rfl⟩ := Nat.exists_eq_succ_of_ne_zero ‹n ≠ 0›
    rw [Nat.succ_eq_add_one, sampleLoop_state keeps adds look (by positivity) m hs]
    congr 1
    field_simp

/-- Sample `k` of point sampling is the look at the instant `(k + 1) * W / N`. -/
theorem pointSampling_getElem (look : σ → Sample) (w n k : Nat) (hk : k < n) {s : σ} (hs : inv s) :
    (pointSampling σ step look w n s).1[k]? = some (look (step ((k + 1 : Nat) * ((w : Rat) / (n : Rat))) s)) := by
  unfold pointSampling
  rw [if_neg (by omega)]
  exact sampleLoop_getElem keeps adds look (by positivity) n k hk hs

omit keeps adds

/-- The default kernel is legal. -/
theorem legalKernel_pointSampling : LegalKernel pointSampling := fun _ _ look _ w n _ keeps adds hs =>
  ⟨pointSampling_length _ look w n _, pointSampling_state keeps adds look w n hs⟩

end Sys2Proof.Machine
end

