-- ==== Sys2Proof/Laws/Frame.lean ====
section
/-! SUPPORT. The modulator ticks and the resampling loop of one frame (42_modulators.md R171, R174; 43_mixer_synth.md
R206). -/

namespace Sys2Proof.Machine

/-- What an envelope tick can do: nothing at period 0, a step at expiry, a count otherwise (R171). -/
theorem Envelope.tick_cases (p : Config.Params) (e : Envelope) :
    (e.period p = 0 ∧ e.tick p = e) ∨
    (e.period p ≠ 0 ∧ e.period p ≤ e.ecnt + 1 ∧ e.tick p = { e with evol := e.stepped, ecnt := 0 }) ∨
    (e.period p ≠ 0 ∧ e.ecnt + 1 < e.period p ∧ e.tick p = { e with ecnt := e.ecnt + 1 }) := by
  unfold Envelope.tick
  split
  · exact .inl ⟨‹_›, rfl⟩
  · split
    · exact .inr (.inl ⟨‹_›, ‹_›, rfl⟩)
    · exact .inr (.inr ⟨‹_›, by omega, rfl⟩)

/-- The volume after a step, as a number (R171). -/
theorem Envelope.stepped_toNat (e : Envelope) :
    e.stepped.toNat = if envAmplify e.reg then min 15 (e.evol.toNat + 1) else e.evol.toNat - 1 := by
  have := e.evol.isLt
  unfold Envelope.stepped
  split <;> simp only [BitVec.toNat_ofNat] <;> omega

/-- What a sweep calculation can do (R174 to R177): nothing at shift 0, a write-back, or an overflow. -/
theorem sweepCalculate_cases (p : Config.Params) (s : State) :
    (sweepShift s.sweep.reg = 0 ∧ sweepCalculate p s = s) ∨
    (sweepShift s.sweep.reg ≠ 0 ∧ sweepSubtract s.sweep.reg = true ∧
      sweepCalculate p s = sweepWriteBack (s.sweep.shadow.toNat - s.sweep.delta) s) ∨
    (sweepShift s.sweep.reg ≠ 0 ∧ sweepSubtract s.sweep.reg = false ∧ p.maxFreq < s.sweep.shadow.toNat + s.sweep.delta ∧
      sweepCalculate p s = s.disablePulse1) ∨
    (sweepShift s.sweep.reg ≠ 0 ∧ sweepSubtract s.sweep.reg = false ∧ s.sweep.shadow.toNat + s.sweep.delta ≤ p.maxFreq ∧
      sweepCalculate p s = sweepWriteBack (s.sweep.shadow.toNat + s.sweep.delta) s) := by
  unfold sweepCalculate
  split
  · exact .inl ⟨‹_›, rfl⟩
  · split
    · exact .inr (.inl ⟨‹_›, ‹_›, rfl⟩)
    · split
      · exact .inr (.inr (.inl ⟨‹_›, by simpa using ‹¬sweepSubtract s.sweep.reg = true›, ‹_›, rfl⟩))
      · exact .inr (.inr (.inr ⟨‹_›, by simpa using ‹¬sweepSubtract s.sweep.reg = true›, by omega, rfl⟩))

/-- What a sweep tick can do: nothing at time 0, a calculation at expiry, a count otherwise (R174). -/
theorem sweepTick_cases (p : Config.Params) (s : State) :
    (s.sweep.period p = 0 ∧ sweepTick p s = s) ∨
    (s.sweep.period p ≠ 0 ∧ s.sweep.period p ≤ s.sweep.scnt + 1 ∧
      sweepTick p s = sweepCalculate p { s with sweep := { s.sweep with scnt := 0 } }) ∨
    (s.sweep.period p ≠ 0 ∧ s.sweep.scnt + 1 < s.sweep.period p ∧
      sweepTick p s = { s with sweep := { s.sweep with scnt := s.sweep.scnt + 1 } }) := by
  unfold sweepTick
  split
  · exact .inl ⟨‹_›, rfl⟩
  · split
    · exact .inr (.inl ⟨‹_›, ‹_›, rfl⟩)
    · exact .inr (.inr ⟨‹_›, by omega, rfl⟩)

/-- A sweep tick writes `FREQ[0]`, the Sweep unit and `chen[0]`, and nothing else (R174, R178). -/
theorem sweepTick_touches (p : Config.Params) (s : State) :
    ∃ (f : BitVec 11) (w : Sweep) (b : Bool), w.reg = s.sweep.reg ∧ (b = true → s.chen.pulse1 = true) ∧
      sweepTick p s = { s with pulse1 := { s.pulse1 with freq := f }, sweep := w, chen := s.chen.set .pulse1 b } := by
  have hc (u : State) : ∃ (f : BitVec 11) (w : Sweep) (b : Bool), w.reg = u.sweep.reg ∧
      (b = true → u.chen.pulse1 = true) ∧
      sweepCalculate p u = { u with pulse1 := { u.pulse1 with freq := f }, sweep := w, chen := u.chen.set .pulse1 b } := by
    have wb (n : Nat) : ∃ (f : BitVec 11) (w : Sweep) (b : Bool), w.reg = u.sweep.reg ∧
        (b = true → u.chen.pulse1 = true) ∧ sweepWriteBack n u =
          { u with pulse1 := { u.pulse1 with freq := f }, sweep := w, chen := u.chen.set .pulse1 b } :=
      ⟨_, (sweepWriteBack n u).sweep, u.chen.pulse1, rfl, id, rfl⟩
    rcases sweepCalculate_cases p u with ⟨_, h⟩ | ⟨_, _, h⟩ | ⟨_, _, _, h⟩ | ⟨_, _, _, h⟩ <;> rw [h]
    · exact ⟨u.pulse1.freq, u.sweep, u.chen.pulse1, rfl, id, rfl⟩
    · exact wb _
    · exact ⟨u.pulse1.freq, u.sweep, false, rfl, by simp, rfl⟩
    · exact wb _
  rcases sweepTick_cases p s with ⟨_, h⟩ | ⟨_, _, h⟩ | ⟨_, _, h⟩ <;> rw [h]
  · exact ⟨s.pulse1.freq, s.sweep, s.chen.pulse1, rfl, id, rfl⟩
  · obtain ⟨f, w, b, hw, hb, e⟩ := hc { s with sweep := { s.sweep with scnt := 0 } }
    exact ⟨f, w, b, hw, hb, e⟩
  · exact ⟨s.pulse1.freq, { s.sweep with scnt := s.sweep.scnt + 1 }, s.chen.pulse1, rfl, id, rfl⟩

/-- The ticks of a frame write the volumes and step counters of the three envelopes, `FREQ[0]`, the Sweep unit and
`chen[0]`, and nothing else (43_mixer_synth.md R202). -/
theorem modulatorTicks_touches (p : Config.Params) (s : State) :
    ∃ (f : BitVec 11) (w : Sweep) (b : Bool), w.reg = s.sweep.reg ∧ (b = true → s.chen.pulse1 = true) ∧
      modulatorTicks p s = { s with
        pulse1 := { s.pulse1 with env := s.pulse1.env.tick p, freq := f }
        pulse2 := { s.pulse2 with env := s.pulse2.env.tick p }
        noise := { s.noise with env := s.noise.env.tick p }
        sweep := w
        chen := s.chen.set .pulse1 b } := by
  obtain ⟨f, w, b, hw, hb, e⟩ := sweepTick_touches p (envTick4 p (envTick2 p (envTick1 p s)))
  exact ⟨f, w, b, hw, hb, e⟩

@[simp] theorem Envelope.tick_reg (p : Config.Params) (e : Envelope) : (e.tick p).reg = e.reg := by
  rcases e.tick_cases p with ⟨_, h⟩ | ⟨_, _, h⟩ | ⟨_, _, h⟩ <;> rw [h]

/-- `t` is `s` but for the timers and positions of the four generators: what stepping may change (41_generators.md R144
to R146). -/
def Stepped (s t : State) : Prop :=
  ∃ (t1 t2 t3 t4 : Timer) (d1 d2 : BitVec 3) (x : BitVec 5) (l : BitVec 15), t = { s with
    pulse1 := { s.pulse1 with timer := t1, dpos := d1 }
    pulse2 := { s.pulse2 with timer := t2, dpos := d2 }
    wave := { s.wave with timer := t3, widx := x }
    noise := { s.noise with timer := t4, lfsr := l } }

theorem Stepped.refl (s : State) : Stepped s s := ⟨_, _, _, _, _, _, _, _, rfl⟩

theorem Stepped.trans {s t u : State} (h : Stepped s t) (k : Stepped t u) : Stepped s u := by
  obtain ⟨_, _, _, _, _, _, _, _, rfl⟩ := h
  obtain ⟨_, _, _, _, _, _, _, _, rfl⟩ := k
  exact ⟨_, _, _, _, _, _, _, _, rfl⟩

theorem stepped_stepAll (p : Config.Params) (c : Rat) (s : State) : Stepped s (stepAll p c s) :=
  ⟨_, _, _, _, _, _, _, _, rfl⟩

/-- The default kernel. -/
theorem resample_default (w n : Nat) (s : State) :
    resample Config.params w n s = pointSampling State (stepAll Config.params) (mixSample Config.params) w n s := rfl

theorem stepped_resample (w n : Nat) (s : State) : Stepped s (resample Config.params w n s).2 := by
  rw [resample_default]
  exact pointSampling_relates Stepped.refl (fun _ _ _ => Stepped.trans) (stepped_stepAll _) _ w n s

/-- The resampler gives N samples (R206). -/
@[simp] theorem resample_length (w n : Nat) (s : State) : (resample Config.params w n s).1.length = n := by
  rw [resample_default, pointSampling_length]

/-- A frame is the ticks, the two accountings, a stepping of the generators, and the new PCM frame (R200, R203). -/
theorem runFrame_touches (s : State) :
    ∃ u, Stepped (carryFrame Config.params (modulatorTicks Config.params s)) u ∧
      runFrame Config.params s = { u with pcm :=
        (resample Config.params (frameCycles Config.params (modulatorTicks Config.params s))
          (frameSamples (modulatorTicks Config.params s))
          (carryFrame Config.params (modulatorTicks Config.params s))).1 } :=
  ⟨_, stepped_resample _ _ _, rfl⟩

/-- The ticks leave what the accountings read: N of the frame (R203). -/
@[simp] theorem frameSamples_modulatorTicks (p : Config.Params) (s : State) :
    frameSamples (modulatorTicks p s) = frameSamples s := by
  obtain ⟨_, _, _, _, _, e⟩ := modulatorTicks_touches p s
  rw [e]
  rfl

/-- The ticks leave what the accountings read: W of the frame (R203). -/
@[simp] theorem frameCycles_modulatorTicks (p : Config.Params) (s : State) :
    frameCycles p (modulatorTicks p s) = frameCycles p s := by
  obtain ⟨_, _, _, _, _, e⟩ := modulatorTicks_touches p s
  rw [e]
  rfl

/-- With any legal kernel the frame has N samples, and the state after it is that of one step by W: all but the samples
is as specified (R206). -/
theorem resample_of_legal {p : Config.Params} (hp : LegalParams p) (w n : Nat) {s : State} (h : Drifts s) :
    (resample p w n s).1.length = n ∧ (resample p w n s).2 = stepAll p (w : Rat) s :=
  hp.kernel State (stepAll p) (mixSample p) Drifts w n s (fun _ _ hc => drifts_stepAll hc)
    (fun _ _ _ hc hd => stepAll_stepAll hp.drf hc hd) h

/-- Sample `k` of the default kernel's frame is the mix at the instant `(k + 1) * W / N` (R206). -/
theorem resample_getElem (w n k : Nat) (hk : k < n) {s : State} (h : Drifts s) :
    (resample Config.params w n s).1[k]? = some (mixSample Config.params
      (stepAll Config.params ((k + 1 : Nat) * ((w : Rat) / (n : Rat))) s)) :=
  pointSampling_getElem (inv := Drifts) (fun _ _ hc => drifts_stepAll hc)
    (fun _ _ _ hc hd => stepAll_stepAll (by decide) hc hd) _ w n k hk h

end Sys2Proof.Machine
end

