-- ==== Sys2Proof/Laws/Exec.lean ====
section
/-! SUPPORT. What the instructions with more than one outcome can answer, each once: `RUN`, `STICK`, `RDPCM`, `SETFPS`,
`SETRATE` (43_mixer_synth.md R194 to R200, 40_register_access.md R130); and the facts of one frame: both accountings in
the default parameters, and the invariant through `use()`. -/

namespace Sys2Proof.Machine

theorem configured_iff (s : State) : s.configured = true ↔ s.fps ≠ 0 ∧ s.rate ≠ 0 := by
  simp only [State.configured, Bool.and_eq_true, bne_iff_ne]

/-- `RUN` answers only if both rates are configured (R201). -/
theorem run_next {s t : State} (h : exec .run s = .next t) :
    s.configured = true ∧
      t = (runFrame Config.params (used s)).respond (BitVec.ofNat 32 (frameSamples (used s))) := by
  simp only [exec, execRun] at h
  split at h
  · cases h
    exact ⟨‹_›, rfl⟩
  · simp at h

/-- Everything a `RUN` can change, as one update of the used state (R200, R203, R209). -/
theorem run_touches {s t : State} (h : exec .run s = .next t) :
    s.configured = true ∧
      ∃ (f : BitVec 11) (w : Sweep) (b : Bool) (t1 t2 t3 t4 : Timer) (d1 d2 : BitVec 3) (x : BitVec 5) (l : BitVec 15)
        (pcm : List Sample), w.reg = (used s).sweep.reg ∧ (b = true → (used s).chen.pulse1 = true) ∧
        pcm.length = frameSamples (used s) ∧
        t = ({ used s with
          pulse1 := { (used s).pulse1 with
            timer := t1, dpos := d1, freq := f, env := (used s).pulse1.env.tick Config.params }
          pulse2 := { (used s).pulse2 with timer := t2, dpos := d2, env := (used s).pulse2.env.tick Config.params }
          wave := { (used s).wave with timer := t3, widx := x }
          noise := { (used s).noise with timer := t4, lfsr := l, env := (used s).noise.env.tick Config.params }
          sweep := w
          chen := (used s).chen.set .pulse1 b
          pcm := pcm
          ccarry := fracPart (cyclesPerFrame Config.params (used s) + (used s).ccarry)
          scarry := fracPart (samplesPerFrame (used s) + (used s).scarry) } : State).respond
            (BitVec.ofNat 32 (frameSamples (used s))) := by
  obtain ⟨hc, rfl⟩ := run_next h
  refine ⟨hc, ?_⟩
  obtain ⟨u, ⟨t1, t2, t3, t4, d1, d2, x, l, rfl⟩, e⟩ := runFrame_touches (used s)
  have hl := resample_length (frameCycles Config.params (modulatorTicks Config.params (used s)))
    (frameSamples (modulatorTicks Config.params (used s))) (carryFrame Config.params (modulatorTicks Config.params (used s)))
  rw [frameSamples_modulatorTicks] at hl e
  obtain ⟨f, w, b, h1, h2, e'⟩ := modulatorTicks_touches Config.params (used s)
  rw [e]
  generalize (resample Config.params _ _ _).1 = pcm at hl ⊢
  rw [e']
  exact ⟨f, w, b, t1, t2, t3, t4, d1, d2, x, l, pcm, h1, h2, hl, rfl⟩

theorem rdpcm_next {k : BitVec 24} {s t : State} (h : exec (.rdpcm k) s = .next t) : ∃ r, t = s.respond r := by
  simp only [exec, execRdpcm] at h
  split at h
  · cases h
    exact ⟨_, rfl⟩
  · simp at h

theorem setfps_next {k : BitVec 24} {s t : State} (h : exec (.setfps k) s = .next t) :
    k ≠ 0 ∧ t = (State.invalidate { s with fps := k }).respond 0 := by
  simp only [exec, execSetfps] at h
  split at h
  · simp at h
  · cases h
    exact ⟨‹_›, rfl⟩

theorem setrate_next {k : BitVec 24} {s t : State} (h : exec (.setrate k) s = .next t) :
    k ≠ 0 ∧ t = (State.invalidate { s with rate := k }).respond 0 := by
  simp only [exec, execSetrate] at h
  split at h
  · simp at h
  · cases h
    exact ⟨‹_›, rfl⟩

/-- Everything a `STICK` can change, as one update of the used state (42_modulators.md R174, R178). -/
theorem stick_next {s t : State} (h : exec .stick s = .next t) :
    ∃ (f : BitVec 11) (w : Sweep) (b : Bool), w.reg = (used s).sweep.reg ∧
      (b = true → (used s).chen.pulse1 = true) ∧
      t = State.respond 0 { used s with
        pulse1 := { (used s).pulse1 with freq := f }, sweep := w, chen := (used s).chen.set .pulse1 b } := by
  cases h
  obtain ⟨f, w, b, h1, h2, e⟩ := sweepTick_touches Config.params (used s)
  rw [e]
  exact ⟨f, w, b, h1, h2, rfl⟩

/-- A command that is a use runs as on the used state (43_mixer_synth.md R196); `RUN` if it is configured. -/
theorem exec_used (i : Instr) (s : State) (h : isUse i = true) (hr : i = .run → s.configured = true) :
    exec i s = exec i (used s) := by
  cases i
  case run => simp only [exec, execRun, use_configured, hr rfl, use_use, used, if_true]
  case setfps => simp [isUse] at h
  case setrate => simp [isUse] at h
  case rdpcm => simp [isUse] at h
  all_goals
    simp only [exec]
    conv_rhs => unfold used
  all_goals first
    | (show perform0 _ _ _ = perform0 _ _ _; simp only [perform0, use_use])
    | (show observe _ _ _ = observe _ _ _; simp only [observe, use_use])

theorem cyclesPerFrame_default (s : State) : cyclesPerFrame Config.params s = cpfFormula s := by
  simp only [cyclesPerFrame, cpfFormula, Config.params]
  norm_num

theorem samplesPerFrame_default (s : State) : samplesPerFrame s = spfFormula s := by
  simp only [samplesPerFrame, spfFormula]
  push_cast
  rfl

theorem cpfFormula_nonneg (s : State) : 0 ≤ cpfFormula s := by
  unfold cpfFormula
  positivity

theorem spfFormula_nonneg (s : State) : 0 ≤ spfFormula s := by
  unfold spfFormula
  positivity

theorem frameCycles_used (s : State) :
    frameCycles Config.params (used s) = ⌊cpfFormula s + (used s).ccarry⌋₊ := by
  unfold frameCycles
  rw [cyclesPerFrame_default, floorNat_eq]
  simp only [cpfFormula, use_fps]

theorem frameSamples_used (s : State) : frameSamples (used s) = ⌊spfFormula s + (used s).scarry⌋₊ := by
  unfold frameSamples
  rw [samplesPerFrame_default, floorNat_eq]
  simp only [spfFormula, use_fps, use_rate]

theorem drfTable_pos : ∀ i : Fin 8, 0 < Config.params.drfTable[i] := by decide

theorem drifts_modulatorTicks {s : State} (h : Drifts s) : Drifts (modulatorTicks Config.params s) := by
  obtain ⟨f, w, b, _, _, e⟩ := modulatorTicks_touches Config.params s
  rw [e]
  intro ch
  have := h ch
  cases ch <;> exact this

/-- `use()` keeps the invariant. -/
theorem invariant_used {s : State} (h : Invariant s) : Invariant (used s) := by
  by_cases hp : s.pending = true
  · rw [used, use_of_pending _ hp, resize_eq]
    constructor
    · intro ch
      cases ch <;> exact isCarry_zero
    · exact isCarry_zero
    · exact isCarry_zero
    · simp [State.powerOn, Config.params, Config.resetValues]
    · simp [State.powerOn, Config.params, Config.resetValues, Memory.wf, Memory.wfFrom]
    · intro h
      cases h
    · exact Nat.zero_le _
    · intro _ hc
      have hc' : s.configured = true := hc
      simp [hc', frameCapacity]
  · rw [used, use_of_not_pending _ (by simpa using hp)]
    exact h

/-- The samples of a frame fit the buffer (R207): `N` is at most the exact count rounded down, plus one. -/
theorem frameSamples_le {s : State} (h : IsCarry (used s).scarry) :
    frameSamples (used s) ≤ s.rate.toNat * 256 / s.fps.toNat + 1 := by
  have e : ⌊spfFormula s⌋₊ = s.rate.toNat * 256 / s.fps.toNat := by
    unfold spfFormula
    rw [← Nat.floor_div_eq_div (K := Rat)]
    push_cast
    rfl
  rw [frameSamples_used, ← e]
  calc ⌊spfFormula s + (used s).scarry⌋₊ ≤ ⌊spfFormula s + ((1 : Nat) : Rat)⌋₊ :=
        Nat.floor_mono (by have := h.2; push_cast; linarith)
    _ = ⌊spfFormula s⌋₊ + 1 := Nat.floor_add_natCast (spfFormula_nonneg s) 1

end Sys2Proof.Machine
end

