-- ==== Sys2Proof/Laws/Memory.lean ====
section
/-! SUPPORT. The wave RAM: read after write, the canonical form, and equality of canonical memories. -/

namespace Sys2Proof.Machine

theorem Memory.wfFrom_mono {lo hi : Nat} (h : lo ≤ hi) {m : List Host.Cell} (hm : Memory.wfFrom hi m = true) :
    Memory.wfFrom lo m = true := by
  cases m with
  | nil => rfl
  | cons c rest =>
    obtain ⟨a, v⟩ := c
    simp only [Memory.wfFrom, Bool.and_eq_true, decide_eq_true_eq] at hm ⊢
    exact ⟨⟨⟨by omega, hm.1.1.2⟩, hm.1.2⟩, hm.2⟩

/-- Below its first address a canonical memory is blank. -/
theorem Memory.read_of_lt {m : List Host.Cell} {lo a : Nat} (hm : Memory.wfFrom lo m = true) (h : a < lo) :
    Memory.read m a = Memory.blank := by
  induction m generalizing lo with
  | nil => rfl
  | cons c rest ih =>
    obtain ⟨b, v⟩ := c
    simp only [Memory.wfFrom, Bool.and_eq_true, decide_eq_true_eq] at hm
    have hb : b ≠ a := by omega
    simp only [Memory.read, hb, if_false]
    exact ih hm.2 (by omega)

theorem Memory.read_consCell (a x : Nat) (v : Byte) (rest : List Host.Cell)
    (h : Memory.read rest a = Memory.blank) :
    Memory.read (Memory.consCell a v rest) x = if x = a then v else Memory.read rest x := by
  unfold Memory.consCell
  by_cases hx : x = a
  · subst hx
    by_cases hv : v = Memory.blank
    · simp [hv, h]
    · simp [hv, Memory.read]
  · by_cases hv : v = Memory.blank
    · simp [hv, hx]
    · simp [hv, hx, Memory.read, Ne.symm hx]

/-- The one law of a write on a canonical memory: the written byte reads as written, every other as before. -/
theorem Memory.read_write {m : List Host.Cell} {lo : Nat} (hm : Memory.wfFrom lo m = true) (a x : Nat) (v : Byte) :
    Memory.read (Memory.write m a v) x = if x = a then v else Memory.read m x := by
  induction m generalizing lo with
  | nil => exact Memory.read_consCell a x v [] rfl
  | cons c rest ih =>
    obtain ⟨b, u⟩ := c
    simp only [Memory.wfFrom, Bool.and_eq_true, decide_eq_true_eq] at hm
    unfold Memory.write
    split
    · rename_i hlt
      by_cases hbx : b = x
      · have : x ≠ a := by omega
        simp [Memory.read, hbx, this]
      · simp [Memory.read, hbx, ih hm.2]
    · split
      · rename_i hba
        subst hba
        rw [Memory.read_consCell _ _ _ _ (Memory.read_of_lt hm.2 (by omega))]
        by_cases hx : x = b
        · simp [hx]
        · simp [hx, Memory.read, Ne.symm hx]
      · rw [Memory.read_consCell]
        have hb : b ≠ a := by omega
        simp only [Memory.read, hb, if_false]
        exact Memory.read_of_lt hm.2 (by omega)

/-- A write leaves every other byte as it was, whatever the form of the memory. -/
theorem Memory.read_write_other (m : List Host.Cell) {a x : Nat} (h : x ≠ a) (v : Byte) :
    Memory.read (Memory.write m a v) x = Memory.read m x := by
  have hc (rest : List Host.Cell) : Memory.read (Memory.consCell a v rest) x = Memory.read rest x := by
    unfold Memory.consCell
    split
    · rfl
    · simp [Memory.read, Ne.symm h]
  induction m with
  | nil => exact hc []
  | cons c rest ih =>
    obtain ⟨b, u⟩ := c
    unfold Memory.write
    split
    · simp [Memory.read, ih]
    · split
      · rename_i hba
        rw [hc]
        simp [Memory.read, hba, Ne.symm h]
      · rw [hc]

theorem Memory.wfFrom_write {m : List Host.Cell} {lo : Nat} (hm : Memory.wfFrom lo m = true) {a : Nat} (hlo : lo ≤ a)
    (ha : a < Memory.size) (v : Byte) : Memory.wfFrom lo (Memory.write m a v) = true := by
  have hcons {rest : List Host.Cell} (hr : Memory.wfFrom (a + 1) rest = true) :
      Memory.wfFrom lo (Memory.consCell a v rest) = true := by
    unfold Memory.consCell
    split
    · exact Memory.wfFrom_mono (by omega) hr
    · rename_i hv
      simp [Memory.wfFrom, hlo, ha, hv, hr]
  induction m generalizing lo with
  | nil => exact hcons rfl
  | cons c rest ih =>
    obtain ⟨b, u⟩ := c
    have hm' := hm
    simp only [Memory.wfFrom, Bool.and_eq_true, decide_eq_true_eq] at hm
    unfold Memory.write
    split
    · rename_i hlt
      have : Memory.wfFrom (b + 1) (Memory.write rest a v) = true := by
        apply ih hm.2 (by omega)
        intro rest' hr'
        unfold Memory.consCell
        split
        · exact Memory.wfFrom_mono (by omega) hr'
        · rename_i hv
          simp [Memory.wfFrom, ha, hv, hr']
          omega
      simp only [Memory.wfFrom, Bool.and_eq_true, decide_eq_true_eq]
      exact ⟨⟨⟨hm.1.1.1, hm.1.1.2⟩, hm.1.2⟩, this⟩
    · split
      · rename_i hba
        subst hba
        exact hcons hm.2
      · apply hcons
        simp only [Memory.wfFrom, Bool.and_eq_true, decide_eq_true_eq]
        exact ⟨⟨⟨by omega, hm.1.1.2⟩, hm.1.2⟩, hm.2⟩

/-- A write keeps the canonical form. -/
theorem Memory.wf_write {m : List Host.Cell} (hm : Memory.wf m = true) {a : Nat} (ha : a < Memory.size) (v : Byte) :
    Memory.wf (Memory.write m a v) = true :=
  Memory.wfFrom_write hm (Nat.zero_le a) ha v

/-- Canonical memories that read alike are equal. -/
theorem Memory.ext_from {lo : Nat} {m n : List Host.Cell} (hm : Memory.wfFrom lo m = true)
    (hn : Memory.wfFrom lo n = true) (h : ∀ a < Memory.size, Memory.read m a = Memory.read n a) : m = n := by
  induction m generalizing lo n with
  | nil =>
    cases n with
    | nil => rfl
    | cons c rest =>
      obtain ⟨b, u⟩ := c
      simp only [Memory.wfFrom, Bool.and_eq_true, decide_eq_true_eq, bne_iff_ne] at hn
      have := h b hn.1.1.2
      simp [Memory.read] at this
      exact absurd this.symm hn.1.2
  | cons c rest ih =>
    obtain ⟨b, u⟩ := c
    simp only [Memory.wfFrom, Bool.and_eq_true, decide_eq_true_eq, bne_iff_ne] at hm
    cases n with
    | nil =>
      have := h b hm.1.1.2
      simp [Memory.read] at this
      exact absurd this hm.1.2
    | cons d rest' =>
      obtain ⟨e, v⟩ := d
      simp only [Memory.wfFrom, Bool.and_eq_true, decide_eq_true_eq, bne_iff_ne] at hn
      have hbe : b = e := by
        rcases Nat.lt_trichotomy b e with hlt | heq | hgt
        · have := h b hm.1.1.2
          have hne : e ≠ b := by omega
          simp only [Memory.read, if_true, hne, if_false] at this
          rw [Memory.read_of_lt hn.2 (by omega)] at this
          exact absurd this hm.1.2
        · exact heq
        · have := h e hn.1.1.2
          have hne : b ≠ e := by omega
          simp only [Memory.read, if_true, hne, if_false] at this
          rw [Memory.read_of_lt hm.2 (by omega)] at this
          exact absurd this.symm hn.1.2
      subst hbe
      have huv : u = v := by simpa [Memory.read] using h b hm.1.1.2
      subst huv
      have : rest = rest' := by
        apply ih hm.2 hn.2
        intro a ha
        by_cases hab : b = a
        · subst hab
          rw [Memory.read_of_lt hm.2 (by omega), Memory.read_of_lt hn.2 (by omega)]
        · simpa [Memory.read, hab] using h a ha
      rw [this]

/-- Canonical memories that read alike at every address of the wave RAM are equal. -/
theorem Memory.ext {m n : List Host.Cell} (hm : Memory.wf m = true) (hn : Memory.wf n = true)
    (h : ∀ a < Memory.size, Memory.read m a = Memory.read n a) : m = n :=
  Memory.ext_from hm hn h

end Sys2Proof.Machine
end

