-- ==== Sys2Proof/Laws/PerInstr.lean ====
section
/-! SUPPORT. Per instruction: its word is one of its own row of opcode_table.json (30_encoding.md R91). -/

namespace Sys2Proof.Laws.EncodedInRow

/-- The word of an instruction matches the instruction's row. -/
def Statement (i : Instr) : Prop := i.row.Matches (encode i)

theorem of_imm (op : BitVec 8) (imm : BitVec 24) : immWordOf op imm &&& 0xFF000000 = immWordOf op 0 := by
  rw [show (0xFF000000 : Word) = immWordOf 0xFF#8 0#24 from by decide, immWordOf_and_immWordOf,
    show op &&& 0xFF#8 = op from BitVec.and_allOnes, BitVec.and_zero]
  rfl

theorem wrFreq1 (data : BitVec 11) : Statement (.wrFreq1 data) := by
  revert data
  simp only [Statement]
  decide +kernel

theorem wrDuty1 (data : BitVec 2) : Statement (.wrDuty1 data) := by
  revert data
  simp only [Statement]
  decide +kernel

theorem wrEnv1 (data : BitVec 8) : Statement (.wrEnv1 data) := by
  revert data
  simp only [Statement]
  decide +kernel

theorem wrPan1 (data : BitVec 2) : Statement (.wrPan1 data) := by
  revert data
  simp only [Statement]
  decide +kernel

theorem wrMixen1 (data : BitVec 1) : Statement (.wrMixen1 data) := by
  revert data
  simp only [Statement]
  decide +kernel

theorem wrSweep (data : BitVec 7) : Statement (.wrSweep data) := by
  revert data
  simp only [Statement]
  decide +kernel

theorem wrFreq2 (data : BitVec 11) : Statement (.wrFreq2 data) := by
  revert data
  simp only [Statement]
  decide +kernel

theorem wrDuty2 (data : BitVec 2) : Statement (.wrDuty2 data) := by
  revert data
  simp only [Statement]
  decide +kernel

theorem wrEnv2 (data : BitVec 8) : Statement (.wrEnv2 data) := by
  revert data
  simp only [Statement]
  decide +kernel

theorem wrPan2 (data : BitVec 2) : Statement (.wrPan2 data) := by
  revert data
  simp only [Statement]
  decide +kernel

theorem wrMixen2 (data : BitVec 1) : Statement (.wrMixen2 data) := by
  revert data
  simp only [Statement]
  decide +kernel

theorem wrFreq3 (data : BitVec 11) : Statement (.wrFreq3 data) := by
  revert data
  simp only [Statement]
  decide +kernel

theorem wrWvol (data : BitVec 2) : Statement (.wrWvol data) := by
  revert data
  simp only [Statement]
  decide +kernel

theorem wrPan3 (data : BitVec 2) : Statement (.wrPan3 data) := by
  revert data
  simp only [Statement]
  decide +kernel

theorem wrMixen3 (data : BitVec 1) : Statement (.wrMixen3 data) := by
  revert data
  simp only [Statement]
  decide +kernel

theorem wrNctrl (data : BitVec 8) : Statement (.wrNctrl data) := by
  revert data
  simp only [Statement]
  decide +kernel

theorem wrEnv4 (data : BitVec 8) : Statement (.wrEnv4 data) := by
  revert data
  simp only [Statement]
  decide +kernel

theorem wrPan4 (data : BitVec 2) : Statement (.wrPan4 data) := by
  revert data
  simp only [Statement]
  decide +kernel

theorem wrMixen4 (data : BitVec 1) : Statement (.wrMixen4 data) := by
  revert data
  simp only [Statement]
  decide +kernel

theorem wrMvol (left : BitVec 3) (right : BitVec 3) : Statement (.wrMvol left right) := by
  revert left right
  simp only [Statement]
  decide +kernel

theorem wrWave (i : BitVec 4) (data : BitVec 8) : Statement (.wrWave i data) := by
  revert i data
  simp only [Statement]
  decide +kernel

theorem rdFreq1 : Statement .rdFreq1 := by unfold Statement; decide

theorem rdDuty1 : Statement .rdDuty1 := by unfold Statement; decide

theorem rdEnv1 : Statement .rdEnv1 := by unfold Statement; decide

theorem rdPan1 : Statement .rdPan1 := by unfold Statement; decide

theorem rdMixen1 : Statement .rdMixen1 := by unfold Statement; decide

theorem rdSweep : Statement .rdSweep := by unfold Statement; decide

theorem rdShadow : Statement .rdShadow := by unfold Statement; decide

theorem rdOut1 : Statement .rdOut1 := by unfold Statement; decide

theorem rdEvol1 : Statement .rdEvol1 := by unfold Statement; decide

theorem rdFreq2 : Statement .rdFreq2 := by unfold Statement; decide

theorem rdDuty2 : Statement .rdDuty2 := by unfold Statement; decide

theorem rdEnv2 : Statement .rdEnv2 := by unfold Statement; decide

theorem rdPan2 : Statement .rdPan2 := by unfold Statement; decide

theorem rdMixen2 : Statement .rdMixen2 := by unfold Statement; decide

theorem rdOut2 : Statement .rdOut2 := by unfold Statement; decide

theorem rdEvol2 : Statement .rdEvol2 := by unfold Statement; decide

theorem rdFreq3 : Statement .rdFreq3 := by unfold Statement; decide

theorem rdWvol : Statement .rdWvol := by unfold Statement; decide

theorem rdPan3 : Statement .rdPan3 := by unfold Statement; decide

theorem rdMixen3 : Statement .rdMixen3 := by unfold Statement; decide

theorem rdOut3 : Statement .rdOut3 := by unfold Statement; decide

theorem rdNctrl : Statement .rdNctrl := by unfold Statement; decide

theorem rdEnv4 : Statement .rdEnv4 := by unfold Statement; decide

theorem rdPan4 : Statement .rdPan4 := by unfold Statement; decide

theorem rdMixen4 : Statement .rdMixen4 := by unfold Statement; decide

theorem rdLfsr : Statement .rdLfsr := by unfold Statement; decide

theorem rdOut4 : Statement .rdOut4 := by unfold Statement; decide

theorem rdEvol4 : Statement .rdEvol4 := by unfold Statement; decide

theorem rdMvol : Statement .rdMvol := by unfold Statement; decide

theorem rdStatus : Statement .rdStatus := by unfold Statement; decide

theorem rdWave (i : BitVec 4) : Statement (.rdWave i) := by
  revert i
  simp only [Statement]
  decide +kernel

theorem rdpcm (idx : BitVec 24) : Statement (.rdpcm idx) := by
  exact (of_imm 0x03#8 idx).trans (show immWordOf 0x03#8 0 = 0x03000000 from by decide)

theorem trig (ch : Channel) : Statement (.trig ch) := by cases ch <;> (unfold Statement; decide)

theorem gstep (ch : Channel) (cycles : BitVec 16) : Statement (.gstep ch cycles) := by
  show wordOf 0x11#8 (channelNumber ch) cycles &&& 0xFFFC0000 = 0x11000000
  rw [show (0xFFFC0000 : Word) = wordOf 0xFF#8 0xFC#8 0#16 from by decide, wordOf_and_wordOf, BitVec.and_zero]
  cases ch <;> rfl

theorem etick0 : Statement .etick0 := by unfold Statement; decide

theorem etick1 : Statement .etick1 := by unfold Statement; decide

theorem etick3 : Statement .etick3 := by unfold Statement; decide

theorem stick : Statement .stick := by unfold Statement; decide

theorem mix : Statement .mix := by unfold Statement; decide

theorem run : Statement .run := by unfold Statement; decide

theorem reset : Statement .reset := by unfold Statement; decide

theorem setfps (imm : BitVec 24) : Statement (.setfps imm) := by
  exact (of_imm 0x32#8 imm).trans (show immWordOf 0x32#8 0 = 0x32000000 from by decide)

theorem setrate (imm : BitVec 24) : Statement (.setrate imm) := by
  exact (of_imm 0x33#8 imm).trans (show immWordOf 0x33#8 0 = 0x33000000 from by decide)

end Sys2Proof.Laws.EncodedInRow
end

