-- ==== Sys2Proof/Tests/Slice0.lean ====
section
/-! SUPPORT. The row's own tests: ill-formed terms, words of every row written out from the spec's encodings, single
steps with the values of 95_test_vectors.md, and a witness for every statement that has hypotheses. V<n> and P<n> are
the vectors and programs of 95_test_vectors.md. -/

namespace Sys2Proof.Tests

open Sys2Proof Sys2Proof.Machine

-- One kernel evaluation at a time: a hundred at once would each hold a thread's stack.
set_option Elab.async false

/-- The state an outcome goes to. -/
def nextOf : Host.Outcome State Fault Refusal → Option State
  | .next t => some t
  | .fault _ => none
  | .refused _ => none

/-- The fault of an outcome. -/
def faultOf : Host.Outcome State Fault Refusal → Option Fault
  | .next _ => none
  | .fault f => some f
  | .refused _ => none

/-- An item after one instruction. -/
def after (i : Instr) (s : State) (x : Item) : Option Value := (nextOf (exec i s)).map (item · x)

/-- The response of one instruction. -/
def reply (i : Instr) (s : State) : Option Word := (nextOf (exec i s)).bind (·.responses.getLast?)

/-- Power-on with the resize-and-reset done. -/
def quiet : State := { State.reset with pending := false }

/-- A pulse 1 in the middle of a sound: period 8, duty 2, envelope 0xD9, sweep 0x11. -/
def sounding : State :=
  { quiet with
    pulse1 := ⟨2046, 2, ⟨0xD9, 15, 0⟩, ⟨1, 1 / 2⟩, 2⟩
    sweep := ⟨0x11, 1024, 0⟩
    chen := ⟨true, false, false, false⟩
    pan := Quad.all 3
    mixen := Quad.all 1
    mvol := 0x73 }

/-- A configured block: 65535 frames a second of 2 samples and 64 cycles each, with a last frame of 2 samples. -/
def framed : State :=
  { sounding with
    fps := 0xFFFF00
    rate := 131070
    pcmCap := 3
    pcm := [⟨1, 2⟩, ⟨3, 4⟩] }

/-- The same with a resize-and-reset due. -/
def owing : State := { framed with pending := true, pcm := [] }

-- Ill-formed terms.

theorem test_wf_setfps_zero : (Instr.setfps 0).wf = false := by decide
theorem test_wf_setrate_zero : (Instr.setrate 0).wf = false := by decide
theorem test_wf_accepts : (Instr.setfps 1).WellFormed ∧ (Instr.setrate 1).WellFormed ∧ (Instr.wrMvol 7 7).WellFormed := by
  decide

-- Decoding: words written out from 30_encoding.md and the address map of 20_memory.md R61.

theorem test_decode_wr_pulse1 :
    decode 0x010007FF = .instr (.wrFreq1 2047) ∧ decode 0x01010003 = .instr (.wrDuty1 3) ∧
    decode 0x010200F0 = .instr (.wrEnv1 0xF0) ∧ decode 0x01030002 = .instr (.wrPan1 2) ∧
    decode 0x01040001 = .instr (.wrMixen1 1) ∧ decode 0x0105007F = .instr (.wrSweep 0x7F) := by decide +kernel

theorem test_decode_wr_others :
    decode 0x01100400 = .instr (.wrFreq2 1024) ∧ decode 0x01110001 = .instr (.wrDuty2 1) ∧
    decode 0x01120080 = .instr (.wrEnv2 0x80) ∧ decode 0x01130001 = .instr (.wrPan2 1) ∧
    decode 0x01140001 = .instr (.wrMixen2 1) ∧ decode 0x012007F8 = .instr (.wrFreq3 2040) ∧
    decode 0x01210002 = .instr (.wrWvol 2) ∧ decode 0x01230001 = .instr (.wrPan3 1) ∧
    decode 0x01240001 = .instr (.wrMixen3 1) ∧ decode 0x013000F7 = .instr (.wrNctrl 0xF7) ∧
    decode 0x01320050 = .instr (.wrEnv4 0x50) ∧ decode 0x01330003 = .instr (.wrPan4 3) ∧
    decode 0x01340001 = .instr (.wrMixen4 1) ∧ decode 0x01400073 = .instr (.wrMvol 7 3) ∧
    decode 0x018F0010 = .instr (.wrWave 15 0x10) := by decide +kernel

theorem test_decode_rd :
    decode 0x02000000 = .instr .rdFreq1 ∧ decode 0x02010000 = .instr .rdDuty1 ∧ decode 0x02020000 = .instr .rdEnv1 ∧
    decode 0x02030000 = .instr .rdPan1 ∧ decode 0x02040000 = .instr .rdMixen1 ∧ decode 0x02050000 = .instr .rdSweep ∧
    decode 0x02060000 = .instr .rdShadow ∧ decode 0x02070000 = .instr .rdOut1 ∧ decode 0x02080000 = .instr .rdEvol1 ∧
    decode 0x02100000 = .instr .rdFreq2 ∧ decode 0x02110000 = .instr .rdDuty2 ∧ decode 0x02120000 = .instr .rdEnv2 ∧
    decode 0x02130000 = .instr .rdPan2 ∧ decode 0x02140000 = .instr .rdMixen2 ∧ decode 0x02170000 = .instr .rdOut2 ∧
    decode 0x02180000 = .instr .rdEvol2 := by decide +kernel

theorem test_decode_rd_others :
    decode 0x02200000 = .instr .rdFreq3 ∧ decode 0x02210000 = .instr .rdWvol ∧ decode 0x02230000 = .instr .rdPan3 ∧
    decode 0x02240000 = .instr .rdMixen3 ∧ decode 0x02270000 = .instr .rdOut3 ∧ decode 0x02300000 = .instr .rdNctrl ∧
    decode 0x02320000 = .instr .rdEnv4 ∧ decode 0x02330000 = .instr .rdPan4 ∧ decode 0x02340000 = .instr .rdMixen4 ∧
    decode 0x02360000 = .instr .rdLfsr ∧ decode 0x02370000 = .instr .rdOut4 ∧ decode 0x02380000 = .instr .rdEvol4 ∧
    decode 0x02400000 = .instr .rdMvol ∧ decode 0x02410000 = .instr .rdStatus ∧
    decode 0x028A0000 = .instr (.rdWave 10) := by decide +kernel

theorem test_decode_commands :
    decode 0x030005BD = .instr (.rdpcm 1469) ∧ decode 0x10020000 = .instr (.trig .wave) ∧
    decode 0x110300FF = .instr (.gstep .noise 0xFF) ∧ decode 0x12000000 = .instr .etick0 ∧
    decode 0x12010000 = .instr .etick1 ∧ decode 0x12030000 = .instr .etick3 ∧ decode 0x13000000 = .instr .stick ∧
    decode 0x20000000 = .instr .mix ∧ decode 0x30000000 = .instr .run ∧ decode 0x31000000 = .instr .reset ∧
    decode 0x32003BBA = .instr (.setfps 15290) ∧ decode 0x3300BB80 = .instr (.setrate 48000) := by decide +kernel

/-- V50 to V56. -/
theorem test_decode_rejects_operands :
    decode 0x00000000 = .bad .illegalOpcode ∧ decode 0xFFFFFFFF = .bad .illegalOpcode ∧
    decode 0x04000000 = .bad .illegalOpcode ∧ decode 0x01000800 = .bad .illegalOperand ∧
    decode 0x01400008 = .bad .illegalOperand ∧ decode 0x01050080 = .bad .illegalOperand ∧
    decode 0x01010004 = .bad .illegalOperand := by decide +kernel

/-- V57 to V67. -/
theorem test_decode_check_order :
    decode 0x01070000 = .bad .illegalAddress ∧ decode 0x01220000 = .bad .illegalAddress ∧
    decode 0x0122FFFF = .bad .illegalAddress ∧ decode 0x02220000 = .bad .illegalAddress ∧
    decode 0x02070001 = .bad .illegalOperand ∧ decode 0x02220001 = .bad .illegalOperand ∧
    decode 0x10040000 = .bad .illegalOperand ∧ decode 0x10000001 = .bad .illegalOperand ∧
    decode 0x12020000 = .bad .illegalOperand ∧ decode 0x13000001 = .bad .illegalOperand ∧
    decode 0x31010000 = .bad .illegalOperand := by decide +kernel

theorem test_decodeTableWord :
    decodeTableWord 32 0x01830067 = some (.wrWave 3 0x67) ∧ decodeTableWord 32 0x04000000 = none := by decide +kernel

/-- The word handed to the block is the very next command. -/
theorem test_withFetchWord :
    (nextOf (step (State.reset.withFetchWord 32 0x010006D6))).map (item · .freq1) = some (.num 1750) := by
  decide +kernel

-- Register access.

/-- V72. -/
theorem test_wrFreq1 : after (.wrFreq1 1750) State.reset .freq1 = some (.num 0x6D6) := by decide +kernel
theorem test_rdFreq1 : reply .rdFreq1 sounding = some 2046 := by decide +kernel

/-- V26: an envelope write does not move the live volume. -/
theorem test_wrEnv1_evol : after (.wrEnv1 0x30) sounding .evol1 = some (.num 15) := by decide +kernel

theorem test_wrPan2 : after (.wrPan2 1) sounding (.pan .pulse2) = some (.num 1) := by decide +kernel
theorem test_wrPan2_frame : after (.wrPan2 1) sounding (.pan .pulse1) = some (.num 3) := by decide +kernel
theorem test_wrMixen4 : after (.wrMixen4 0) sounding (.mixen .noise) = some (.num 0) := by decide +kernel

theorem test_wrMvol : after (.wrMvol 7 3) quiet .mvol = some (.num 0x73) := by decide +kernel
theorem test_rdMvol : reply .rdMvol sounding = some 0x73 := by decide +kernel

/-- V73. -/
theorem test_wrWave : after (.wrWave 3 0x67) quiet (.waveByte 3) = some (.num 0x67) := by decide +kernel

/-- V15: the noise periods at the two ends. -/
theorem test_noise_period :
    (Noise.period Config.params ⟨0x00, ⟨0, 0, 0⟩, Timer.zero, 0⟩ = 16) ∧
    (Noise.period Config.params ⟨0xF7, ⟨0, 0, 0⟩, Timer.zero, 0⟩ = 7340032) := by decide +kernel

/-- V75, V8. -/
theorem test_rdLfsr : reply .rdLfsr State.reset = some 0x7FFF := by decide +kernel
theorem test_rdStatus : reply .rdStatus sounding = some 0x01 := by decide +kernel
theorem test_rdStatus_owing : reply .rdStatus { sounding with pending := true } = some 0 := by decide +kernel
theorem test_rdShadow : reply .rdShadow sounding = some 1024 := by decide +kernel
theorem test_rdEvol1 : reply .rdEvol1 sounding = some 15 := by decide +kernel

/-- V1, duty 2 at positions 4 and 5. -/
theorem test_rdOut1_low : reply .rdOut1 { sounding with pulse1 := { sounding.pulse1 with dpos := 4 } } = some 0 := by
  decide +kernel
theorem test_rdOut1_high : reply .rdOut1 { sounding with pulse1 := { sounding.pulse1 with dpos := 5 } } = some 15 := by
  decide +kernel

/-- V12: high nibble first. -/
theorem test_rdOut3 :
    reply .rdOut3 { quiet with wave := ⟨2047, 1, [(0, 0xA5)], Timer.zero, 0⟩, chen := Quad.all true } = some 10 ∧
    reply .rdOut3 { quiet with wave := ⟨2047, 1, [(0, 0xA5)], Timer.zero, 1⟩, chen := Quad.all true } = some 5 := by
  decide +kernel

/-- V16: the output is the inverse of bit 0. -/
theorem test_rdOut4 :
    reply .rdOut4 { quiet with noise := ⟨0, ⟨0xF0, 15, 0⟩, Timer.zero, 0x4000⟩, chen := Quad.all true } = some 15 ∧
    reply .rdOut4 { quiet with noise := ⟨0, ⟨0xF0, 15, 0⟩, Timer.zero, 0x0001⟩, chen := Quad.all true } = some 0 := by
  decide +kernel

theorem test_rdpcm_left : reply (.rdpcm 2) framed = some 3 := by decide +kernel
theorem test_rdpcm_beyond : faultOf (exec (.rdpcm 4) framed) = some (.illegalAddress 0x03000004) := by decide +kernel

-- Generators.

/-- A block built with `FREQ_BITS` 10: the widest legal frequency, and the first that is too wide (R9, R88). -/
theorem test_freq_bits :
    decodeWith { Config.params with freqBits := 10 } 0x010003FF = .instr (.wrFreq1 1023) ∧
    decodeWith { Config.params with freqBits := 10 } 0x01000400 = .bad .illegalOperand := by decide +kernel

/-- A kernel that is not point sampling: silence, and one step by W. -/
def silentKernel : ResampleKernel := fun _ step _ w n s => (List.replicate n ⟨0, 0⟩, step (w : Rat) s)

/-- R206: it is a legal kernel, and its frames have the length of every kernel's and its own samples. -/
theorem test_silentKernel_legal : LegalKernel silentKernel := fun _ _ _ _ _ _ _ _ _ _ => by simp [silentKernel]
theorem test_silentKernel_frame (s : State) :
    (runFrame { Config.params with resampleKernel := silentKernel } s).pcm =
      List.replicate (frameSamples (modulatorTicks Config.params s)) ⟨0, 0⟩ := rfl

/-- P1: the restart of channel 0. -/
theorem test_trig_pulse1 :
    after (.trig .pulse1) sounding .evol1 = some (.num 13) ∧ after (.trig .pulse1) sounding .shadow = some (.num 2046) := by
  decide +kernel

theorem test_trig_noise : after (.trig .noise) { quiet with noise := { quiet.noise with lfsr := 1 } } .lfsr =
    some (.num 0x7FFF) := by decide +kernel

/-- V2: 17 cycles at period 8 from counter 0, position 2. -/
theorem test_gstep_pulse1 :
    after (.gstep .pulse1 0x0110) { sounding with pulse1 := { sounding.pulse1 with timer := Timer.zero } } .dpos1 =
      some (.num 4) ∧
    after (.gstep .pulse1 0x0110) { sounding with pulse1 := { sounding.pulse1 with timer := Timer.zero } } (.gcnt .pulse1) =
      some (.num 1) := by decide +kernel

/-- V3: half a cycle is carried. -/
theorem test_gstep_carry : after (.gstep .pulse1 0x0018) sounding (.drift .pulse1) = some (.frac 0) := by decide +kernel

/-- V11: 645 cycles at period 16 from counter 0, index 1. -/
theorem test_gstep_wave :
    after (.gstep .wave 0x2850) { quiet with wave := ⟨2040, 1, [], Timer.zero, 1⟩ } .widx = some (.num 9) ∧
    after (.gstep .wave 0x2850) { quiet with wave := ⟨2040, 1, [], Timer.zero, 1⟩ } (.gcnt .wave) = some (.num 5) := by
  decide +kernel

/-- V18: fifteen shifts in one step. -/
theorem test_gstep_noise : after (.gstep .noise 0x0F00) quiet .lfsr = some (.num 0x4000) := by decide +kernel

/-- V17: the first shift of 7-bit mode. -/
theorem test_gstep_noise_short :
    after (.gstep .noise 0x0100) { quiet with noise := { quiet.noise with nctrl := 0x08 } } .lfsr = some (.num 0x3FBF) := by
  decide +kernel

-- Modulators.

/-- V22: clamp at 15. -/
theorem test_etick0 : after .etick0 sounding .evol1 = some (.num 15) := by decide +kernel

/-- V23: the second tick counts, the third steps down. -/
theorem test_etick1 :
    after .etick1 { quiet with pulse2 := { quiet.pulse2 with env := ⟨0x23, 2, 1⟩ } } .ecnt2 = some (.num 2) ∧
    after .etick1 { quiet with pulse2 := { quiet.pulse2 with env := ⟨0x23, 2, 2⟩ } } .evol2 = some (.num 1) := by
  decide +kernel

/-- V23: clamp at 0; V24: period 0. -/
theorem test_etick3 :
    after .etick3 { quiet with noise := { quiet.noise with env := ⟨0x23, 0, 2⟩ } } .evol4 = some (.num 0) ∧
    after .etick3 { quiet with noise := { quiet.noise with env := ⟨0x70, 7, 0⟩ } } .evol4 = some (.num 7) := by
  decide +kernel

/-- V36: 2047 is valid, 2049 is an overflow. -/
theorem test_stick_add :
    after .stick { quiet with sweep := ⟨0x11, 1365, 0⟩, chen := Quad.all true } .freq1 = some (.num 2047) ∧
    after .stick { quiet with sweep := ⟨0x11, 1366, 0⟩, chen := Quad.all true } (.chen .pulse1) = some (.flag false) := by
  decide +kernel

/-- V31: time 2, subtraction, shift 2. -/
theorem test_stick_subtract :
    after .stick { quiet with sweep := ⟨0x2A, 1024, 0⟩ } .scnt = some (.num 1) ∧
    after .stick { quiet with sweep := ⟨0x2A, 1024, 1⟩ } .shadow = some (.num 768) := by decide +kernel

-- Mixer and frame driver.

/-- V39c: the maximum. -/
theorem test_mix_maximum :
    reply .mix
      { quiet with
        pulse1 := ⟨2047, 1, ⟨0xF0, 15, 0⟩, Timer.zero, 0⟩
        pulse2 := ⟨2047, 1, ⟨0xF0, 15, 0⟩, Timer.zero, 0⟩
        wave := ⟨0, 1, [(0, 0xFF)], Timer.zero, 0⟩
        noise := ⟨0, ⟨0xF0, 15, 0⟩, Timer.zero, 0x4000⟩
        chen := Quad.all true
        pan := Quad.all 3
        mixen := Quad.all 1
        mvol := 0x77 } = some 0x78007800 := by decide +kernel

/-- V42, third frame: the long one. -/
theorem test_accounting :
    let s : State := { quiet with fps := 0x3BBA, rate := 44100, ccarry := 1574 / 7645, scarry := 1116 / 1529 }
    frameSamples s = 739 ∧ frameCycles Config.params s = 70225 ∧ (carryFrame Config.params s).scarry = 145 / 1529 := by
  decide +kernel

theorem test_run_framed : reply .run framed = some 2 := by decide +kernel

/-- V44. -/
theorem test_run_not_configured :
    faultOf (exec .run { State.reset with fps := 0x3C00 }) = some (.notConfigured 0x30000000) := by decide +kernel

/-- V40, V68. -/
theorem test_setfps : after (.setfps 0x3C00) framed .pcm = some (.frame []) := by decide +kernel
theorem test_setfps_zero : faultOf (exec (.setfps 0) quiet) = some (.illegalOperand 0x32000000) := by decide +kernel
theorem test_setrate : after (.setrate 48000) framed .pending = some (.flag true) := by decide +kernel
theorem test_setrate_zero : faultOf (exec (.setrate 0) quiet) = some (.illegalOperand 0x33000000) := by decide +kernel

/-- V46. -/
theorem test_reset :
    after .reset framed .lfsr = some (.num 0x7FFF) ∧ after .reset framed .rate = some (.num 131070) := by decide +kernel

-- Witnesses: for each statement with hypotheses a state and operands that meet them together.

theorem half_isCarry : IsCarry (1 / 2) := by norm_num [IsCarry]

theorem witness_invariant (s : State) (hs : s = framed ∨ s = owing) : Invariant s := by
  have hd : ∀ ch, IsCarry (framed.timer ch).drift := by
    intro ch
    cases ch <;> first | exact half_isCarry | exact isCarry_zero
  rcases hs with rfl | rfl
  · exact ⟨hd, isCarry_zero, isCarry_zero, by decide +kernel, by decide +kernel, by decide +kernel, by decide +kernel,
      by decide +kernel⟩
  · exact ⟨hd, isCarry_zero, isCarry_zero, by decide +kernel, by decide +kernel, by decide +kernel, by decide +kernel,
      by decide +kernel⟩

/-- StepKeepsInvariant. -/
theorem witness_step : Invariant framed ∧ ∃ t, step framed = .next t := ⟨witness_invariant _ (.inl rfl), _, rfl⟩

/-- EncodeOfDecode, DecoderFollowsOpcodeTable. -/
theorem witness_decode :
    decode 0x010006D6 = .instr (.wrFreq1 1750) ∧ (Instr.wrFreq1 0).row.Matches 0x010006D6 := by decide +kernel

/-- ReservedOpcodesFault. -/
theorem witness_reserved : decode 0x04000000 = .bad .illegalOpcode ∧ decode 0x34FFFFFF = .bad .illegalOpcode := by
  decide +kernel

/-- StepRunsTheDecodedInstruction, one per clause. -/
theorem witness_command :
    (quiet.present 0x13000000).port = 0x13000000 :: [] ∧ decode 0x13000000 = .instr .stick ∧
    decode 0x13000001 = .bad .illegalOperand ∧ quiet.port = [] := by decide +kernel

/-- UseResizesAndResets, one per clause; the last: `SETRATE` while a resize-and-reset is due. -/
theorem witness_use :
    (isUse (.setrate 1) = false ∧ (nextOf (exec (.setrate 1) owing)).isSome = true) ∧
    framed.pending = false ∧ owing.pending = true ∧ State.reset.pending = true ∧ isUse .run = true ∧
    framed.configured = true ∧ isUse .rdStatus = true := by decide +kernel

/-- RatesAndCapacityHaveTheirWriters, one per clause in which a value changes. -/
theorem witness_rates :
    (nextOf (exec (.setfps 1) framed)).map (·.fps) = some 1 ∧
    (nextOf (exec (.setrate 1) framed)).map (·.rate) = some 1 ∧
    (nextOf (exec .rdStatus { owing with pcmCap := 0 })).map (·.pcmCap) = some 3 := by decide +kernel

/-- ProgrammableRegistersHaveOneWriter, one per kind of writer. -/
theorem witness_writers :
    after (.wrFreq1 5) sounding .freq1 ≠ some (item (entered (.wrFreq1 5) sounding) .freq1) ∧
    after .stick sounding .freq1 ≠ some (item (entered .stick sounding) .freq1) ∧
    after .reset sounding .mvol ≠ some (item (entered .reset sounding) .mvol) ∧
    after (.wrWave 15 1) sounding (.waveByte 15) ≠ some (item (entered (.wrWave 15 1) sounding) (.waveByte 15)) := by
  decide +kernel

/-- FlagsHaveTheirWriters, one per way a flag changes. -/
theorem witness_flags :
    after (.trig .wave) sounding (.chen .wave) = some (.flag true) ∧
    after .stick { sounding with sweep := ⟨0x11, 1366, 0⟩ } (.chen .pulse1) = some (.flag false) ∧
    after (.rdpcm 0) { framed with pending := true } .pending = some (.flag true) ∧
    after (.setrate 1) framed .pending = some (.flag true) ∧ after .mix owing .pending = some (.flag false) := by
  decide +kernel

/-- EveryCommandAnswersOnce: one that answers 0 and one that answers a value. -/
theorem witness_answers : reply (.trig .noise) quiet = some 0 ∧ reply .rdLfsr quiet = some 0x7FFF := by decide +kernel

/-- FaultsAreExactlyTheSpecs: each of its four faults. -/
theorem witness_faults :
    faultOf (exec (.rdpcm 0) State.reset) = some (.illegalAddress 0x03000000) ∧
    faultOf (exec .run State.reset) = some (.notConfigured 0x30000000) ∧
    faultOf (exec (.setfps 0) State.reset) = some (.illegalOperand 0x32000000) ∧
    faultOf (exec (.setrate 0) State.reset) = some (.illegalOperand 0x33000000) := by decide +kernel

/-- FaultsRecordTheCommandWord, FaultLeavesTheStateAndTheNextRuns. -/
theorem witness_fault_step :
    faultOf (step (quiet.present 0x0122FFFF)) = some (.illegalAddress 0x0122FFFF) ∧
    faultOf (command 0x12020000 quiet) = some (.illegalOperand 0x12020000) := by decide +kernel

/-- IllegalPolicyIsFollowed, both policies. -/
theorem witness_policy :
    Config.params.illegalPolicy = .fault ∧
    ({ Config.params with illegalPolicy := .ignore } : Config.Params).illegalPolicy = .ignore := by decide +kernel

/-- ItemsDetermineTheState, WriteOfWaveRam, PseudoInstructions: canonical wave RAMs, the second not empty. -/
theorem witness_ram :
    Memory.wf sounding.wave.ram = true ∧ Memory.wf (Memory.write (Memory.write [] 15 0x10) 0 0xA5) = true ∧
    Memory.write (Memory.write [] 15 0x10) 0 0xA5 = [(0, 0xA5), (15, 0x10)] := by decide +kernel

/-- WriteCommand: data at the first value too wide, for the widths 11, 8, 7, 2 and 1; and the widest legal one. -/
theorem witness_wide_data :
    decode (wordOf 0x01#8 0x00#8 2048#16) = .bad .illegalOperand ∧ decode (wordOf 0x01#8 0x02#8 256#16) = .bad .illegalOperand ∧
    decode (wordOf 0x01#8 0x05#8 128#16) = .bad .illegalOperand ∧ decode (wordOf 0x01#8 0x01#8 4#16) = .bad .illegalOperand ∧
    decode (wordOf 0x01#8 0x04#8 2#16) = .bad .illegalOperand ∧
    decode (wordOf 0x01#8 0x00#8 2047#16) = .instr (.wrFreq1 2047) := by decide +kernel

/-- WriteOfMasterVolume, WriteOfWaveRam: each condition on the data at its boundary, alone. -/
theorem witness_mvol_data :
    decode 0x01400100 = .bad .illegalOperand ∧ decode 0x01400080 = .bad .illegalOperand ∧
    decode 0x01400008 = .bad .illegalOperand ∧ decode 0x01400077 = .instr (.wrMvol 7 7) ∧
    decode 0x018000FF = .instr (.wrWave 0 255) ∧ decode 0x01800100 = .bad .illegalOperand := by decide +kernel

/-- TriggerRestartsAChannel, EnvelopeTicks, SweepTick, MixSumsTheChannels, ResetCommand: each illegal operand alone, at
its boundary. -/
theorem witness_illegal_operands :
    3 < (4#8).toNat ∧ (2#8).toNat = 2 ∧ (1#16 : BitVec 16) ≠ 0 ∧ (0x800000#24 : BitVec 24) ≠ 0 ∧
    decode 0x10030000 = .instr (.trig .noise) ∧ decode 0x12030000 = .instr .etick3 := by decide +kernel

/-- ReadCommand: a reserved half that is not 0. -/
theorem witness_reserved_half : (0x8000#16 : BitVec 16) ≠ 0 ∧ decode (wordOf 0x02#8 0x41#8 0x8000#16) = .bad .illegalOperand := by
  decide +kernel

/-- ReadsOfThePcmFrame: the last value of the frame and the first index beyond it. -/
theorem witness_pcm : (3#24).toNat < 2 * framed.pcmLen ∧ 2 * framed.pcmLen ≤ (4#24).toNat := by decide +kernel

/-- AdvancesAddUp, AdvanceEndsBelowThePeriod, PcmValuesFit. -/
theorem witness_legal_params : LegalParams Config.params := by
  constructor <;> first | exact legalKernel_pointSampling | decide

theorem witness_advance :
    IsCarry (framed.timer .pulse1).drift ∧ (0 : Rat) ≤ 3 / 2 ∧ ∀ d ∈ [(1 : Rat) / 16, 0], 0 ≤ d :=
  ⟨half_isCarry, by norm_num, by simp⟩

/-- GeneratorsAreIndependent. -/
theorem witness_channels : Channel.pulse1 ≠ Channel.noise := by decide

/-- PulseWaveformIsPeriodic: the counter below the period, and a stretch inside it. -/
theorem witness_pulse :
    sounding.pulse1.timer.gcnt < sounding.pulse1.period ∧ sounding.pulse1.timer.gcnt + 6 < sounding.pulse1.period := by
  decide +kernel

/-- NoiseNeverSticksInAFixedMode: shift numbers at the ends of the range. -/
theorem witness_shifts : (0 < 1 ∧ 1 < 127) ∧ 0 < 126 ∧ 126 < 127 := by decide

/-- ConstantVolumeAtPeriodZero, all three clauses. -/
theorem witness_constant_volume :
    let s : State :=
      { quiet with
        pulse1 := { quiet.pulse1 with env := ⟨0x70, 7, 0⟩ }
        pulse2 := { quiet.pulse2 with env := ⟨0x70, 7, 0⟩ }
        noise := { quiet.noise with env := ⟨0x70, 7, 0⟩ } }
    (entered .etick0 s).pulse1.env.reg.toNat % 8 = 0 ∧ (entered .etick0 s).pulse2.env.reg.toNat % 8 = 0 ∧
    (entered .etick0 s).noise.env.reg.toNat % 8 = 0 ∧ after .etick0 s .evol1 = some (.num 7) := by decide +kernel

/-- SweepOverflowLatches. -/
theorem witness_sweep_overflow :
    let s : State := { sounding with sweep := ⟨0x11, 1536, 0⟩, chen := Quad.all false }
    s.pending = false ∧ s.chen.pulse1 = false ∧ s.sweep.reg.toNat / 8 % 2 = 0 ∧
    2047 < s.sweep.shadow.toNat + s.sweep.shadow.toNat / 2 ^ (s.sweep.reg.toNat % 8) := by decide +kernel

/-- SweepSubtractionIsSafe, with a shadow below `2 ^ shift` and with one above. -/
theorem witness_sweep_subtraction :
    let s : State := { quiet with sweep := ⟨0x1F, 1, 0⟩ }
    let u : State := { quiet with sweep := ⟨0x2A, 1024, 0⟩ }
    (s.pending = false ∧ s.sweep.reg.toNat / 8 % 2 = 1 ∧ s.sweep.shadow.toNat < 2 ^ (s.sweep.reg.toNat % 8)) ∧
    u.pending = false ∧ u.sweep.reg.toNat / 8 % 2 = 1 := by decide +kernel

/-- StaleShadowWins: V37. -/
theorem witness_stale_shadow :
    (nextOf (execAll [.wrFreq1 100, .stick] sounding)).map (item · .freq1) = some (.num 1536) ∧
    (nextOf (execAll [.stick] sounding)).map (item · .freq1) = some (.num 1536) ∧
    (used sounding).sweep.reg.toNat / 16 ≠ 0 ∧ (used sounding).sweep.reg.toNat % 8 ≠ 0 ∧
    (used sounding).sweep.reg.toNat / 16 ≤ (used sounding).sweep.scnt + 1 ∧
    (used sounding).sweep.shadow.toNat + (used sounding).sweep.shadow.toNat / 2 ^ ((used sounding).sweep.reg.toNat % 8) ≤
      2047 := by decide +kernel

/-- RateSetters, RateChangeWipesRegisters. -/
theorem witness_rate_change :
    (15360#24 : BitVec 24) ≠ 0 ∧ (nextOf (exec (.setrate 48000) framed)).isSome = true ∧
    (nextOf (exec (.setfps 15360) framed)).isSome = true ∧ Item.programmable .freq1 = true := by decide +kernel

/-- RunMakesOneFrame. -/
theorem witness_run : framed.fps ≠ 0 ∧ framed.rate ≠ 0 ∧ Invariant framed :=
  ⟨by decide +kernel, by decide +kernel, witness_invariant _ (.inl rfl)⟩

/-- RunAdvancesByWholeCycles, RunSamplesAtEvenInstants (sample 1 of 2); SilenceAfterReset. -/
theorem witness_run_answers :
    (nextOf (exec .run framed)).map (·.pcmLen) = some 2 ∧ (nextOf (exec .run owing)).isSome = true ∧
    ((nextOf (exec .reset framed)).bind fun t => nextOf (exec .run t)).isSome = true := by decide +kernel

/-- LongRunRateIsExact. -/
theorem witness_long_run :
    Invariant framed ∧ framed.pending = false ∧ framed.fps ≠ 0 ∧ framed.rate ≠ 0 ∧ framed.ccarry = 0 ∧
    framed.scarry = 0 :=
  ⟨witness_invariant _ (.inl rfl), by decide +kernel, by decide +kernel, by decide +kernel, by decide +kernel,
    by decide +kernel⟩

end Sys2Proof.Tests
end

section
/-! PROOF. Scope: what a step does, which instructions fault, and what legal parameters give (00_scope.md R7 to R9,
R13, R14). First the lemmas of each statement, then the statement. -/

namespace Sys2Proof.Machine

/-! ### The step by its cases (00_scope.md R7, R8) -/

theorem step_of_port_nil {s : State} (h : s.port = []) : step s = .next s := by
  simp only [step, takeCommand, h, idle]

theorem step_of_port_cons {s : State} {w : Word} {rest : List Word} (h : s.port = w :: rest) :
    step s = command w { s with port := rest } := by
  simp only [step, takeCommand, h]

theorem command_of_instr {w : Word} {i : Instr} (h : decode w = .instr i) (s : State) : command w s = exec i s := by
  simp only [command, h]

theorem command_of_bad {w : Word} {e : DecodeError} (h : decode w = .bad e) (s : State) :
    command w s = .fault (decodeFault e w) := by
  simp only [command, h, raise_default]

/-- Settles O12: the port is empty or not, and its first word decodes or not. -/
theorem stepRunsTheDecodedInstruction : Obligations.StepRunsTheDecodedInstruction :=
  ⟨fun _ _ _ _ hport hw => (step_of_port_cons hport).trans (command_of_instr hw _),
    fun _ _ _ _ hport hw => (step_of_port_cons hport).trans (command_of_bad hw _),
    fun _ => step_of_port_nil⟩

/-! ### The default parameters (00_scope.md R9, R14) -/

/-- Settles O4, constraint by constraint; the kernel's is the law of point sampling (43_mixer_synth.md R206). -/
theorem defaultParametersAreLegal : Obligations.DefaultParametersAreLegal where
  clock := by decide
  freqBits := by decide
  maxFreq := by decide
  duty := by decide
  drf := drfTable_pos
  volZero := rfl
  volMono := by decide
  volFits := by decide
  envScale := by decide
  sweepScale := by decide
  pcmScale := by decide
  kernel := legalKernel_pointSampling
  resetFreq := by decide
  mvol := by decide
  ram := rfl

/-! ### The bound of a PCM value (43_mixer_synth.md R191) -/

/-- A channel contributes at most the last entry of `volTable`, the largest. -/
theorem contribution_le {p : Config.Params} (hp : LegalParams p) (side : BitVec 2 → Bool) (s : State) (ch : Channel) :
    contribution p side s ch ≤ p.volTable[15] := by
  unfold contribution
  split
  · exact hp.volMono (chOut p ch s).toFin 15 (Fin.le_last _)
  · exact Nat.zero_le _

theorem acc_le {p : Config.Params} (hp : LegalParams p) (side : BitVec 2 → Bool) (s : State) :
    acc p side s ≤ p.volTable[15] * 4 := by
  have h := contribution_le hp side s
  unfold acc
  linarith [h .pulse1, h .pulse2, h .wave, h .noise]

/-- Four channels at the loudest volume and the highest level are the constraint of R9. -/
theorem sideValue_le {p : Config.Params} (hp : LegalParams p) (side : BitVec 2 → Bool) (level : BitVec 3) (s : State) :
    sideValue p side level s ≤ 32767 :=
  calc acc p side s * (level.toNat + 1) * p.pcmScale
      ≤ p.volTable[15] * 4 * 8 * p.pcmScale := by
        gcongr
        · exact acc_le hp side s
        · exact level.isLt
    _ ≤ 32767 := hp.volFits

/-- A legal PCM value is stored without truncation. -/
theorem toNat_ofNat_sideValue {p : Config.Params} (hp : LegalParams p) (side : BitVec 2 → Bool) (level : BitVec 3)
    (s : State) : (BitVec.ofNat 16 (sideValue p side level s)).toNat = sideValue p side level s := by
  have h := sideValue_le hp side level s
  rw [BitVec.toNat_ofNat]
  omega

/-- Settles O51: the bound of `sideValue_le` leaves no room for truncation. -/
theorem pcmValuesFit : Obligations.PcmValuesFit := by
  intro p s hp
  have hl := toNat_ofNat_sideValue hp panLeft (mvolLeft s.mvol) s
  have hr := toNat_ofNat_sideValue hp panRight (mvolRight s.mvol) s
  exact ⟨hl, hr, hl.trans_le (sideValue_le hp _ _ s), hr.trans_le (sideValue_le hp _ _ s)⟩

/-! ### Which instructions fault (60_exceptions.md R222) -/

/-- The fault the spec gives an instruction in a state, if any (R130, R194, R195, R201). -/
def specFault (i : Instr) (s : State) : Option Fault :=
  match i with
  | .rdpcm k =>
    if 2 * s.pcmLen ≤ k.toNat then some (.illegalAddress (BitVec.ofNat 32 (0x03000000 + k.toNat))) else none
  | .run => if s.fps = 0 ∨ s.rate = 0 then some (.notConfigured 0x30000000) else none
  | .setfps v => if v = 0 then some (.illegalOperand 0x32000000) else none
  | .setrate v => if v = 0 then some (.illegalOperand 0x33000000) else none
  | _ => none

theorem specFault_rdpcm (k : BitVec 24) (s : State) : specFault (.rdpcm k) s =
    if 2 * s.pcmLen ≤ k.toNat then some (.illegalAddress (BitVec.ofNat 32 (0x03000000 + k.toNat))) else none := rfl

theorem specFault_run (s : State) :
    specFault .run s = if s.fps = 0 ∨ s.rate = 0 then some (.notConfigured 0x30000000) else none := rfl

theorem specFault_setfps (v : BitVec 24) (s : State) :
    specFault (.setfps v) s = if v = 0 then some (.illegalOperand 0x32000000) else none := rfl

theorem specFault_setrate (v : BitVec 24) (s : State) :
    specFault (.setrate v) s = if v = 0 then some (.illegalOperand 0x33000000) else none := rfl

theorem specFault_eq_some_iff (i : Instr) (s : State) (f : Fault) :
    specFault i s = some f ↔
      (∃ k, i = .rdpcm k ∧ 2 * s.pcmLen ≤ k.toNat ∧ f = .illegalAddress (BitVec.ofNat 32 (0x03000000 + k.toNat))) ∨
      (i = .run ∧ (s.fps = 0 ∨ s.rate = 0) ∧ f = .notConfigured 0x30000000) ∨
      (i = .setfps 0 ∧ f = .illegalOperand 0x32000000) ∨ (i = .setrate 0 ∧ f = .illegalOperand 0x33000000) := by
  cases i
  case rdpcm k => simp [specFault_rdpcm, eq_comm (b := f)]
  case run => simp [specFault_run, eq_comm (b := f)]
  case setfps v => simp [specFault_setfps, eq_comm (b := f)]
  case setrate v => simp [specFault_setrate, eq_comm (b := f)]
  all_goals exact iff_of_false nofun (by simp)

/-- No value lies at an index exactly from `2 * pcmLen` on (R130). -/
theorem pcmRead_eq_none_iff (s : State) (j : Nat) : pcmRead s.pcm j = none ↔ 2 * s.pcmLen ≤ j := by
  simp only [pcmRead, State.pcmLen, Option.map_eq_none_iff, List.getElem?_eq_none_iff]
  omega

theorem encode_rdpcm (k : BitVec 24) : encode (.rdpcm k) = BitVec.ofNat 32 (0x03000000 + k.toNat) := by
  apply BitVec.eq_of_toNat_eq
  show (immWordOf 0x03#8 k).toNat = _
  simp only [immWordOf_toNat, BitVec.toNat_ofNat]
  omega

/-- What an instruction's outcome is when the spec gives it the fault `f`, or none: that fault, or a next state. -/
def Follows (o : Host.Outcome State Fault Refusal) : Option Fault → Prop
  | some f => o = .fault f
  | none => ∃ t, o = .next t

/-- One condition `c` for a fault: the fault where `c` holds, a next state where it does not. -/
theorem follows_ite {c : Prop} [Decidable c] {f g : Fault} {t : State} (h : c → f = g) :
    Follows (if c then .fault f else .next t) (if c then some g else none) := by
  split
  · rw [h ‹c›]
    rfl
  · exact ⟨t, rfl⟩

theorem exec_rdpcm_follows (k : BitVec 24) (s : State) : Follows (exec (.rdpcm k) s) (specFault (.rdpcm k) s) := by
  simp only [exec, execRdpcm, specFault_rdpcm, ← pcmRead_eq_none_iff]
  cases pcmRead s.pcm k.toNat with
  | none => simp [Follows, encode_rdpcm]
  | some v => exact ⟨_, rfl⟩

theorem exec_run_follows (s : State) : Follows (exec .run s) (specFault .run s) := by
  have hc := configured_iff s
  simp only [exec, execRun, specFault_run]
  by_cases h : s.fps = 0 ∨ s.rate = 0
  · rw [if_neg (by tauto), if_pos h]; rfl
  · rw [if_pos (by tauto), if_neg h]; exact ⟨_, rfl⟩

theorem exec_setfps_follows (v : BitVec 24) (s : State) : Follows (exec (.setfps v) s) (specFault (.setfps v) s) :=
  follows_ite (by rintro rfl; rfl)

theorem exec_setrate_follows (v : BitVec 24) (s : State) :
    Follows (exec (.setrate v) s) (specFault (.setrate v) s) :=
  follows_ite (by rintro rfl; rfl)

/-- Every instruction but four has no check left after decoding: it performs or observes. -/
theorem exec_follows (i : Instr) (s : State) : Follows (exec i s) (specFault i s) := by
  cases i
  case rdpcm k => exact exec_rdpcm_follows k s
  case run => exact exec_run_follows s
  case setfps v => exact exec_setfps_follows v s
  case setrate v => exact exec_setrate_follows v s
  all_goals exact ⟨_, rfl⟩

theorem Follows.not_refused {o : Host.Outcome State Fault Refusal} {e : Option Fault} (h : Follows o e)
    (r : Refusal) : o ≠ .refused r := by
  cases e with
  | none => obtain ⟨t, rfl⟩ := h; simp
  | some f => cases h; simp

theorem Follows.fault_iff {o : Host.Outcome State Fault Refusal} {e : Option Fault} (h : Follows o e) (f : Fault) :
    o = .fault f ↔ e = some f := by
  cases e with
  | none => obtain ⟨t, rfl⟩ := h; simp
  | some g => cases h; simp

/-- Settles O18: the outcome follows `specFault`, which is the statement's list. -/
theorem faultsAreExactlyTheSpecs : Obligations.FaultsAreExactlyTheSpecs := fun i s =>
  ⟨(exec_follows i s).not_refused, fun f => ((exec_follows i s).fault_iff f).trans (specFault_eq_some_iff i s f)⟩

end Sys2Proof.Machine
end

section
/-! PROOF. The state: power-on, the invariant, and who writes what (10_state.md R20, R49 to R55). First the lemmas of
each statement, then the statement. -/

namespace Sys2Proof.Machine

/-! ### What an instruction does -/

/-- What an instruction does, after its fault checks and the pending resize-and-reset, apart from its response;
nothing for `RD`, `RDPCM` and `MIX`. -/
def effect (i : Instr) (s : State) : State :=
  match i with
  | .wrFreq1 d => setFreq1 d s
  | .wrDuty1 d => setDuty1 d s
  | .wrEnv1 d => setEnv1 d s
  | .wrPan1 d => setPan1 d s
  | .wrMixen1 d => setMixen1 d s
  | .wrSweep d => setSweep d s
  | .wrFreq2 d => setFreq2 d s
  | .wrDuty2 d => setDuty2 d s
  | .wrEnv2 d => setEnv2 d s
  | .wrPan2 d => setPan2 d s
  | .wrMixen2 d => setMixen2 d s
  | .wrFreq3 d => setFreq3 d s
  | .wrWvol d => setWvol d s
  | .wrPan3 d => setPan3 d s
  | .wrMixen3 d => setMixen3 d s
  | .wrNctrl d => setNctrl d s
  | .wrEnv4 d => setEnv4 d s
  | .wrPan4 d => setPan4 d s
  | .wrMixen4 d => setMixen4 d s
  | .wrMvol l r => setMvol l r s
  | .wrWave k d => setWaveByte k d s
  | .trig ch => trigger Config.params ch s
  | .gstep ch c => advance Config.params ch (gstepCycles c) s
  | .etick0 => envTick1 Config.params s
  | .etick1 => envTick2 Config.params s
  | .etick3 => envTick4 Config.params s
  | .stick => sweepTick Config.params s
  | .run => runFrame Config.params s
  | .reset => powerOnValues Config.params s
  | .setfps v => State.invalidate { s with fps := v }
  | .setrate v => State.invalidate { s with rate := v }
  | _ => s

theorem effect_rdpcm (k : BitVec 24) (s : State) : effect (.rdpcm k) s = s := rfl
theorem effect_trig (ch : Channel) (s : State) : effect (.trig ch) s = trigger Config.params ch s := rfl
theorem effect_gstep (ch : Channel) (c : BitVec 16) (s : State) :
    effect (.gstep ch c) s = advance Config.params ch (gstepCycles c) s := rfl
theorem effect_stick (s : State) : effect .stick s = sweepTick Config.params s := rfl
theorem effect_run (s : State) : effect .run s = runFrame Config.params s := rfl
theorem effect_setfps (v : BitVec 24) (s : State) :
    effect (.setfps v) s = State.invalidate { s with fps := v } := rfl
theorem effect_setrate (v : BitVec 24) (s : State) :
    effect (.setrate v) s = State.invalidate { s with rate := v } := rfl

/-- The one way an instruction answers a next state: its effect on the state it enters, and one response. -/
theorem exec_next {i : Instr} {s t : State} (h : exec i s = .next t) :
    ∃ r, t = (effect i (entered i s)).respond r := by
  cases i
  case run => exact ⟨_, (run_next h).2⟩
  case rdpcm => exact rdpcm_next h
  case setfps => exact ⟨_, (setfps_next h).2⟩
  case setrate => exact ⟨_, (setrate_next h).2⟩
  all_goals
    cases h
    exact ⟨_, rfl⟩

theorem entered_of_isUse {i : Instr} (h : isUse i = true) (s : State) : entered i s = used s := by
  simp only [entered, h, if_true]

theorem entered_of_not_isUse {i : Instr} (h : isUse i = false) (s : State) : entered i s = s := by
  simp [entered, h]

theorem entered_cases (i : Instr) (s : State) :
    (isUse i = true ∧ entered i s = used s) ∨ (isUse i = false ∧ entered i s = s) := by
  cases h : isUse i
  · exact .inr ⟨rfl, entered_of_not_isUse h s⟩
  · exact .inl ⟨rfl, entered_of_isUse h s⟩

/-! ### Every step keeps the invariant (R49) -/

theorem drift_timer_advance (p : Config.Params) (ch d : Channel) (c : Rat) (s : State) :
    ((advance p ch c s).timer d).drift =
      if d = ch then fracPart ((s.timer d).drift + c) else (s.timer d).drift := by
  cases ch <;> cases d <;> rfl

theorem timer_trigger (p : Config.Params) (ch d : Channel) (s : State) :
    (trigger p ch s).timer d = if d = ch then Timer.zero else s.timer d := by
  cases ch <;> cases d <;> rfl

theorem drifts_advance (p : Config.Params) (ch : Channel) {c : Rat} (hc : 0 ≤ c) {s : State} (h : Drifts s) :
    Drifts (advance p ch c s) := by
  intro d
  rw [drift_timer_advance]
  split
  · exact isCarry_fracPart (add_nonneg (h d).1 hc)
  · exact h d

theorem drifts_trigger (p : Config.Params) (ch : Channel) {s : State} (h : Drifts s) : Drifts (trigger p ch s) := by
  intro d
  rw [timer_trigger]
  split
  · exact isCarry_zero
  · exact h d

theorem invariant_advance (p : Config.Params) (ch : Channel) {c : Rat} (hc : 0 ≤ c) {s : State} (h : Invariant s) :
    Invariant (advance p ch c s) := by
  have hd := drifts_advance p ch hc h.drift
  cases ch <;> exact { h with drift := hd }

theorem invariant_stepAll (p : Config.Params) {c : Rat} (hc : 0 ≤ c) {s : State} (h : Invariant s) :
    Invariant (stepAll p c s) :=
  { h with drift := drifts_stepAll hc h.drift }

theorem invariant_trigger (p : Config.Params) (ch : Channel) {s : State} (h : Invariant s) :
    Invariant (trigger p ch s) := by
  have hd := drifts_trigger p ch h.drift
  cases ch <;> exact { h with drift := hd }

theorem invariant_sweepTick (p : Config.Params) {s : State} (h : Invariant s) : Invariant (sweepTick p s) := by
  obtain ⟨f, w, b, -, -, e⟩ := sweepTick_touches p s
  rw [e]
  exact { h with }

theorem invariant_modulatorTicks (p : Config.Params) {s : State} (h : Invariant s) :
    Invariant (modulatorTicks p s) :=
  invariant_sweepTick p { h with }

theorem cyclesPerFrame_nonneg (p : Config.Params) (s : State) : 0 ≤ cyclesPerFrame p s := by
  unfold cyclesPerFrame
  positivity

theorem samplesPerFrame_nonneg (s : State) : 0 ≤ samplesPerFrame s := by
  unfold samplesPerFrame
  positivity

theorem invariant_carryFrame (p : Config.Params) {s : State} (h : Invariant s) : Invariant (carryFrame p s) :=
  { h with
    ccarry := isCarry_fracPart (add_nonneg (cyclesPerFrame_nonneg p s) h.ccarry.1)
    scarry := isCarry_fracPart (add_nonneg (samplesPerFrame_nonneg s) h.scarry.1) }

/-- A frame fits the buffer that the last resize made (R207). -/
theorem frameSamples_le_pcmCap {s : State} (h : Invariant s) (hp : s.pending = false) (hc : s.configured = true) :
    frameSamples s ≤ s.pcmCap := by
  have hu : used s = s := use_of_not_pending _ hp
  have hle : frameSamples (used s) ≤ frameCapacity s := frameSamples_le (by rw [hu]; exact h.scarry)
  rw [hu] at hle
  exact hle.trans_eq (h.sized hp hc).symm

theorem modulatorTicks_pending (p : Config.Params) (s : State) : (modulatorTicks p s).pending = s.pending := by
  obtain ⟨_, _, _, _, _, e⟩ := modulatorTicks_touches p s
  rw [e]

theorem modulatorTicks_pcmCap (p : Config.Params) (s : State) : (modulatorTicks p s).pcmCap = s.pcmCap := by
  obtain ⟨_, _, _, _, _, e⟩ := modulatorTicks_touches p s
  rw [e]

theorem invariant_withFrame {s : State} (h : Invariant s) (hp : s.pending = false) {frame : List Sample}
    (hlen : frame.length ≤ s.pcmCap) : Invariant { s with pcm := frame } :=
  { h with
    pending := fun hpend => absurd (hp.symm.trans hpend) Bool.false_ne_true
    fits := hlen }

/-- A frame of N samples is the ticks, the accountings, one step of the generators by W (R206), and a new content of the
buffer. -/
theorem runFrame_eq {s : State} (h : Drifts s) :
    ∃ frame : List Sample, frame.length = frameSamples s ∧
      runFrame Config.params s =
        { stepAll Config.params (frameCycles Config.params s : Rat)
            (carryFrame Config.params (modulatorTicks Config.params s)) with pcm := frame } := by
  obtain ⟨hlen, hstate⟩ := resample_of_legal defaultParametersAreLegal (frameCycles Config.params s) (frameSamples s)
    (s := carryFrame Config.params (modulatorTicks Config.params s)) (drifts_modulatorTicks h)
  refine ⟨_, hlen, ?_⟩
  rw [← hstate, runFrame, frameCycles_modulatorTicks, frameSamples_modulatorTicks]

theorem invariant_runFrame {s : State} (h : Invariant s) (hp : s.pending = false) (hc : s.configured = true) :
    Invariant (runFrame Config.params s) := by
  obtain ⟨frame, hlen, e⟩ := runFrame_eq h.drift
  have hm := invariant_carryFrame Config.params (invariant_modulatorTicks Config.params h)
  rw [e]
  apply invariant_withFrame (invariant_stepAll _ (Nat.cast_nonneg _) hm)
  · exact (modulatorTicks_pending _ s).trans hp
  · calc frame.length = frameSamples s := hlen
      _ ≤ s.pcmCap := frameSamples_le_pcmCap h hp hc
      _ = (modulatorTicks Config.params s).pcmCap := (modulatorTicks_pcmCap _ s).symm

/-- The values of power-on meet the invariant; the capacity, which they leave, must be that of the last resize. -/
theorem invariant_powerOnValues {s : State}
    (sized : s.pending = false → s.configured = true → s.pcmCap = frameCapacity s) :
    Invariant (powerOnValues Config.params s) where
  drift ch := by cases ch <;> exact isCarry_zero
  ccarry := isCarry_zero
  scarry := isCarry_zero
  mvol := defaultParametersAreLegal.mvol
  ram := defaultParametersAreLegal.ram
  pending _ := rfl
  fits := Nat.zero_le _
  sized := sized

theorem mvolByte_reserved (l r : BitVec 3) :
    (mvolByte l r).getLsbD 7 = false ∧ (mvolByte l r).getLsbD 3 = false := by
  simp [mvolByte]

/-- An instruction that has performed the pending reset, `RUN` with both rates configured, keeps the invariant; most
touch nothing that it speaks of. -/
theorem invariant_effect {i : Instr} {s : State} (h : Invariant s) (hp : isUse i = true → s.pending = false)
    (hc : i = .run → s.configured = true) : Invariant (effect i s) := by
  cases i
  case wrMvol l r => exact { h with mvol := mvolByte_reserved l r }
  case wrWave k d => exact { h with ram := Memory.wf_write h.ram k.isLt d }
  case trig ch => exact invariant_trigger _ ch h
  case gstep ch c => exact invariant_advance _ ch (by unfold gstepCycles; positivity) h
  case stick => exact invariant_sweepTick _ h
  case run => exact invariant_runFrame h (hp rfl) (hc rfl)
  case reset => exact invariant_powerOnValues h.sized
  case setfps v => exact { h with pending := fun _ => rfl, fits := Nat.zero_le _, sized := nofun }
  case setrate v => exact { h with pending := fun _ => rfl, fits := Nat.zero_le _, sized := nofun }
  all_goals exact { h with }

theorem invariant_entered (i : Instr) {s : State} (h : Invariant s) : Invariant (entered i s) := by
  rcases entered_cases i s with ⟨-, e⟩ | ⟨-, e⟩ <;> rw [e]
  · exact invariant_used h
  · exact h

theorem invariant_exec {i : Instr} {s t : State} (h : Invariant s) (hx : exec i s = .next t) : Invariant t := by
  have hi : Invariant (effect i (entered i s)) := by
    apply invariant_effect (invariant_entered i h)
    · intro hu
      rw [entered_of_isUse hu, use_pending]
    · rintro rfl
      rw [entered_of_isUse rfl, use_configured]
      exact (run_next hx).1
  obtain ⟨r, rfl⟩ := exec_next hx
  exact { hi with }

/-- Settles O3: an idle step changes nothing, and a command keeps the invariant because its instruction does. -/
theorem stepKeepsInvariant : Obligations.StepKeepsInvariant := by
  intro s t h hs
  cases hport : s.port with
  | nil =>
    rw [step_of_port_nil hport] at hs
    cases hs
    exact h
  | cons w rest =>
    rw [step_of_port_cons hport] at hs
    cases hw : decode w with
    | instr i =>
      rw [command_of_instr hw] at hs
      exact invariant_exec (s := { s with port := rest }) { h with } hs
    | bad e => simp [command_of_bad hw] at hs

/-! ### The items determine the state (R20) -/

theorem Timer.ext {t u : Timer} (gcnt : t.gcnt = u.gcnt) (drift : t.drift = u.drift) : t = u := by
  cases t
  cases u
  simp_all

theorem Envelope.ext {e f : Envelope} (reg : e.reg = f.reg) (evol : e.evol = f.evol) (ecnt : e.ecnt = f.ecnt) :
    e = f := by
  cases e
  cases f
  simp_all

theorem Pulse.ext {g k : Pulse} (freq : g.freq = k.freq) (duty : g.duty = k.duty) (env : g.env = k.env)
    (timer : g.timer = k.timer) (dpos : g.dpos = k.dpos) : g = k := by
  cases g
  cases k
  simp_all

theorem Wave.ext {g k : Wave} (freq : g.freq = k.freq) (wvol : g.wvol = k.wvol) (ram : g.ram = k.ram)
    (timer : g.timer = k.timer) (widx : g.widx = k.widx) : g = k := by
  cases g
  cases k
  simp_all

theorem Noise.ext {g k : Noise} (nctrl : g.nctrl = k.nctrl) (env : g.env = k.env) (timer : g.timer = k.timer)
    (lfsr : g.lfsr = k.lfsr) : g = k := by
  cases g
  cases k
  simp_all

theorem Sweep.ext {w v : Sweep} (reg : w.reg = v.reg) (shadow : w.shadow = v.shadow) (scnt : w.scnt = v.scnt) :
    w = v := by
  cases w
  cases v
  simp_all

/-- A register is determined by the number it shows. -/
theorem Value.num_toNat_inj {n : Nat} {a b : BitVec n} (h : Value.num a.toNat = .num b.toNat) : a = b :=
  BitVec.eq_of_toNat_eq (Value.num.inj h)

/-- Equal registers show equal numbers. -/
theorem Value.num_toNat_congr {n : Nat} {a b : BitVec n} (h : a = b) : Value.num a.toNat = .num b.toNat := by
  rw [h]

section
variable {s t : State} (h : ∀ x, item s x = item t x)
include h

theorem timer_eq_of_items (ch : Channel) : s.timer ch = t.timer ch :=
  Timer.ext (Value.num.inj (h (.gcnt ch))) (Value.frac.inj (h (.drift ch)))

theorem pulse1_eq_of_items : s.pulse1 = t.pulse1 :=
  Pulse.ext (Value.num_toNat_inj (h .freq1)) (Value.num_toNat_inj (h .duty1))
    (Envelope.ext (Value.num_toNat_inj (h .env1)) (Value.num_toNat_inj (h .evol1)) (Value.num.inj (h .ecnt1)))
    (timer_eq_of_items h .pulse1) (Value.num_toNat_inj (h .dpos1))

theorem pulse2_eq_of_items : s.pulse2 = t.pulse2 :=
  Pulse.ext (Value.num_toNat_inj (h .freq2)) (Value.num_toNat_inj (h .duty2))
    (Envelope.ext (Value.num_toNat_inj (h .env2)) (Value.num_toNat_inj (h .evol2)) (Value.num.inj (h .ecnt2)))
    (timer_eq_of_items h .pulse2) (Value.num_toNat_inj (h .dpos2))

/-- Only a canonical wave RAM is determined by its sixteen bytes. -/
theorem wave_eq_of_items (hs : Memory.wf s.wave.ram = true) (ht : Memory.wf t.wave.ram = true) :
    s.wave = t.wave :=
  Wave.ext (Value.num_toNat_inj (h .freq3)) (Value.num_toNat_inj (h .wvol))
    (Memory.ext hs ht fun a ha => Value.num_toNat_inj (h (.waveByte ⟨a, ha⟩)))
    (timer_eq_of_items h .wave) (Value.num_toNat_inj (h .widx))

theorem noise_eq_of_items : s.noise = t.noise :=
  Noise.ext (Value.num_toNat_inj (h .nctrl))
    (Envelope.ext (Value.num_toNat_inj (h .env4)) (Value.num_toNat_inj (h .evol4)) (Value.num.inj (h .ecnt4)))
    (timer_eq_of_items h .noise) (Value.num_toNat_inj (h .lfsr))

theorem sweep_eq_of_items : s.sweep = t.sweep :=
  Sweep.ext (Value.num_toNat_inj (h .sweep)) (Value.num_toNat_inj (h .shadow)) (Value.num.inj (h .scnt))

end

/-- Settles O22, field by field. -/
theorem itemsDetermineTheState : Obligations.ItemsDetermineTheState := by
  intro s t hs ht h hport hresponses
  have hpulse1 := pulse1_eq_of_items h
  have hpulse2 := pulse2_eq_of_items h
  have hwave := wave_eq_of_items h hs ht
  have hnoise := noise_eq_of_items h
  have hsweep := sweep_eq_of_items h
  have hchen : s.chen = t.chen := Quad.ext_get fun ch => Value.flag.inj (h (.chen ch))
  have hpan : s.pan = t.pan := Quad.ext_get fun ch => Value.num_toNat_inj (h (.pan ch))
  have hmixen : s.mixen = t.mixen := Quad.ext_get fun ch => Value.num_toNat_inj (h (.mixen ch))
  have hmvol : s.mvol = t.mvol := Value.num_toNat_inj (h .mvol)
  have hfps : s.fps = t.fps := Value.num_toNat_inj (h .fps)
  have hrate : s.rate = t.rate := Value.num_toNat_inj (h .rate)
  have hpending : s.pending = t.pending := Value.flag.inj (h .pending)
  have hccarry : s.ccarry = t.ccarry := Value.frac.inj (h .ccarry)
  have hscarry : s.scarry = t.scarry := Value.frac.inj (h .scarry)
  have hpcmCap : s.pcmCap = t.pcmCap := Value.num.inj (h .pcmCap)
  have hpcm : s.pcm = t.pcm := Value.frame.inj (h .pcm)
  cases s
  cases t
  simp_all

/-! ### The generators end below their periods (R33, R34) -/

/-- Settles O40: the counter is a remainder by the period, the carry a fraction. -/
theorem advanceEndsBelowThePeriod : Obligations.AdvanceEndsBelowThePeriod := fun _ _ _ hp hc hd =>
  ⟨drifts_stepAll hc hd, Timer.count_lt (Pulse.period_pos _) _ _, Timer.count_lt (Pulse.period_pos _) _ _,
    Timer.count_lt (Wave.period_pos _) _ _, Timer.count_lt (Noise.period_pos hp.drf _) _ _⟩

/-! ### Power-on (R50) -/

theorem timer_reset (ch : Channel) : State.reset.timer ch = Timer.zero := by
  cases ch <;> rfl

/-- Settles O1: item by item; those of one per channel are the same for every channel. -/
theorem resetGivesPowerOnValues : Obligations.ResetGivesPowerOnValues := by
  intro x
  cases x
  case pan ch => exact Value.num_toNat_congr (Quad.get_all 0 ch)
  case mixen ch => exact Value.num_toNat_congr (Quad.get_all 0 ch)
  case chen ch => exact congrArg Value.flag (Quad.get_all false ch)
  case gcnt ch => exact congrArg (Value.num ·.gcnt) (timer_reset ch)
  case drift ch => exact congrArg (Value.frac ·.drift) (timer_reset ch)
  all_goals rfl

/-- Settles O2: reset is the values of power-on with a reset pending, so that the capacity is not yet constrained. -/
theorem invariantAtReset : Obligations.InvariantAtReset :=
  invariant_powerOnValues (s := State.reset) nofun

/-! ### The rates, the capacity and `pending` (R30, R31, R51, R55) -/

/-- `t` has the rates, the capacity and the pending reset of `s`. -/
structure SameSetup (s t : State) : Prop where
  fps : t.fps = s.fps
  rate : t.rate = s.rate
  pcmCap : t.pcmCap = s.pcmCap
  pending : t.pending = s.pending

theorem sameSetup_sweepTick (p : Config.Params) (s : State) : SameSetup s (sweepTick p s) := by
  obtain ⟨_, _, _, _, _, e⟩ := sweepTick_touches p s
  rw [e]
  exact ⟨rfl, rfl, rfl, rfl⟩

theorem sameSetup_runFrame (s : State) : SameSetup s (runFrame Config.params s) := by
  obtain ⟨_, ⟨_, _, _, _, _, _, _, _, rfl⟩, e⟩ := runFrame_touches s
  obtain ⟨_, _, _, _, _, hm⟩ := modulatorTicks_touches Config.params s
  rw [e, hm]
  exact ⟨rfl, rfl, rfl, rfl⟩

/-- Only `SETFPS` and `SETRATE` have an effect on them; the pending reset comes before the effect. -/
theorem sameSetup_effect {i : Instr} (hf : ∀ v, i ≠ .setfps v) (hr : ∀ v, i ≠ .setrate v) (s : State) :
    SameSetup s (effect i s) := by
  cases i
  case trig ch => cases ch <;> exact ⟨rfl, rfl, rfl, rfl⟩
  case gstep ch c => cases ch <;> exact ⟨rfl, rfl, rfl, rfl⟩
  case stick => exact sameSetup_sweepTick _ s
  case run => exact sameSetup_runFrame s
  case setfps v => exact absurd rfl (hf v)
  case setrate v => exact absurd rfl (hr v)
  all_goals exact ⟨rfl, rfl, rfl, rfl⟩

theorem entered_fps (i : Instr) (s : State) : (entered i s).fps = s.fps := by
  rcases entered_cases i s with ⟨-, e⟩ | ⟨-, e⟩ <;> simp [e]

theorem entered_rate (i : Instr) (s : State) : (entered i s).rate = s.rate := by
  rcases entered_cases i s with ⟨-, e⟩ | ⟨-, e⟩ <;> simp [e]

/-- The capacity after `use()`: as before, or that of the resize (43_mixer_synth.md R196). -/
theorem use_pcmCap_cases (p : Config.Params) (s : State) :
    (use p s).pcmCap = s.pcmCap ∨
      (s.pending = true ∧ s.configured = true ∧ (use p s).pcmCap = frameCapacity s) := by
  cases hp : s.pending with
  | false => exact .inl (by rw [use_of_not_pending p hp])
  | true =>
    rw [use_of_pending p hp, resize_eq]
    by_cases hc : s.configured = true
    · exact .inr ⟨rfl, hc, if_pos hc⟩
    · exact .inl (if_neg hc)

theorem entered_pcmCap_cases (i : Instr) (s : State) :
    (entered i s).pcmCap = s.pcmCap ∨ (isUse i = true ∧ s.pending = true ∧ s.fps ≠ 0 ∧ s.rate ≠ 0 ∧
      (entered i s).pcmCap = s.rate.toNat * 256 / s.fps.toNat + 1) := by
  rcases entered_cases i s with ⟨hu, e⟩ | ⟨-, e⟩ <;> rw [e]
  · rcases use_pcmCap_cases Config.params s with h | ⟨hp, hc, h⟩
    · exact .inl h
    · obtain ⟨hfps, hrate⟩ := (configured_iff s).mp hc
      exact .inr ⟨hu, hp, hfps, hrate, h⟩
  · exact .inl rfl

/-- Settles O14: the effect of all but the two setters keeps the three values, and only `use()` resizes. -/
theorem ratesAndCapacityHaveTheirWriters : Obligations.RatesAndCapacityHaveTheirWriters := by
  intro i s t h
  obtain ⟨r, rfl⟩ := exec_next h
  by_cases hf : ∃ v, i = .setfps v
  · obtain ⟨v, rfl⟩ := hf
    exact ⟨.inr rfl, .inl rfl, .inl rfl⟩
  by_cases hr : ∃ v, i = .setrate v
  · obtain ⟨v, rfl⟩ := hr
    exact ⟨.inl rfl, .inr rfl, .inl rfl⟩
  have hsame := sameSetup_effect (not_exists.mp hf) (not_exists.mp hr) (entered i s)
  refine ⟨.inl (hsame.fps.trans (entered_fps i s)), .inl (hsame.rate.trans (entered_rate i s)), ?_⟩
  rw [respond_pcmCap, hsame.pcmCap]
  exact entered_pcmCap_cases i s

/-! ### The flags (R55) -/

theorem isUse_eq_false_iff (i : Instr) :
    isUse i = false ↔ (∃ k, i = .rdpcm k) ∨ (∃ v, i = .setfps v) ∨ ∃ v, i = .setrate v := by
  cases i <;> simp [isUse]

theorem pending_effect_used {i : Instr} (hu : isUse i = true) (s : State) : (effect i (used s)).pending = false := by
  have hf : ∀ v, i ≠ .setfps v := by rintro v rfl; cases hu
  have hr : ∀ v, i ≠ .setrate v := by rintro v rfl; cases hu
  exact (sameSetup_effect hf hr _).pending.trans (use_pending _ s)

theorem pending_effect_entered_iff (i : Instr) (s : State) :
    (effect i (entered i s)).pending = true ↔
      (s.pending = true ∧ ∃ k, i = .rdpcm k) ∨ (∃ v, i = .setfps v) ∨ ∃ v, i = .setrate v := by
  cases hu : isUse i with
  | true =>
    have hno := mt (isUse_eq_false_iff i).mpr (by simp [hu])
    rw [entered_of_isUse hu, pending_effect_used hu]
    exact iff_of_false nofun fun h => hno (h.imp_left And.right)
  | false =>
    rw [entered_of_not_isUse hu]
    rcases (isUse_eq_false_iff i).mp hu with ⟨k, rfl⟩ | ⟨v, rfl⟩ | ⟨v, rfl⟩ <;>
      simp [effect_rdpcm, effect_setfps, effect_setrate]

theorem chen_trigger (p : Config.Params) (ch : Channel) (s : State) :
    (trigger p ch s).chen = s.chen.set ch true := by
  cases ch <;> rfl

theorem chen_advance (p : Config.Params) (ch : Channel) (c : Rat) (s : State) : (advance p ch c s).chen = s.chen := by
  cases ch <;> rfl

/-- A sweep overflow can only clear the flag of channel 0 (42_modulators.md R175). -/
theorem chen_sweepTick (p : Config.Params) (s : State) :
    ∃ b, (b = true → s.chen.pulse1 = true) ∧ (sweepTick p s).chen = s.chen.set .pulse1 b := by
  obtain ⟨_, _, b, _, hb, e⟩ := sweepTick_touches p s
  rw [e]
  exact ⟨b, hb, rfl⟩

theorem chen_runFrame (s : State) :
    ∃ b, (b = true → s.chen.pulse1 = true) ∧ (runFrame Config.params s).chen = s.chen.set .pulse1 b := by
  obtain ⟨_, ⟨_, _, _, _, _, _, _, _, rfl⟩, e⟩ := runFrame_touches s
  obtain ⟨_, _, b, _, hb, hm⟩ := modulatorTicks_touches Config.params s
  rw [e, hm]
  exact ⟨b, hb, rfl⟩

theorem get_of_get_set_true {q : Quad Bool} {a ch : Channel} {b : Bool} (hb : b = true → q.get a = true)
    (h : (q.set a b).get ch = true) : q.get ch = true := by
  by_cases hch : ch = a
  · subst hch
    rw [Quad.get_set_same] at h
    exact hb h
  · rwa [Quad.get_set_other q b hch] at h

theorem chen_of_chen_effect_true {i : Instr} {s : State} {ch : Channel} (h : (effect i s).chen.get ch = true) :
    s.chen.get ch = true ∨ i = .trig ch := by
  cases i
  case trig c =>
    by_cases hc : ch = c
    · exact .inr (by rw [hc])
    · rw [effect_trig, chen_trigger, Quad.get_set_other _ _ hc] at h
      exact .inl h
  case gstep c n =>
    rw [effect_gstep, chen_advance] at h
    exact .inl h
  case stick =>
    obtain ⟨b, hb, e⟩ := chen_sweepTick Config.params s
    rw [effect_stick, e] at h
    exact .inl (get_of_get_set_true hb h)
  case run =>
    obtain ⟨b, hb, e⟩ := chen_runFrame s
    rw [effect_run, e] at h
    exact .inl (get_of_get_set_true hb h)
  case reset =>
    have hall : (effect .reset s).chen.get ch = false := Quad.get_all false ch
    exact absurd (hall.symm.trans h) Bool.false_ne_true
  all_goals exact .inl h

theorem chen_of_chen_effect_false {i : Instr} {s : State} {ch : Channel} (h : (effect i s).chen.get ch = false) :
    s.chen.get ch = false ∨ i = .reset ∨ (ch = .pulse1 ∧ (i = .stick ∨ i = .run)) := by
  cases i
  case trig c =>
    rw [effect_trig, chen_trigger] at h
    by_cases hc : ch = c
    · rw [hc, Quad.get_set_same] at h
      cases h
    · rw [Quad.get_set_other _ _ hc] at h
      exact .inl h
  case gstep c n =>
    rw [effect_gstep, chen_advance] at h
    exact .inl h
  case stick =>
    by_cases hc : ch = .pulse1
    · exact .inr (.inr ⟨hc, .inl rfl⟩)
    · obtain ⟨b, -, e⟩ := chen_sweepTick Config.params s
      rw [effect_stick, e, Quad.get_set_other _ _ hc] at h
      exact .inl h
  case run =>
    by_cases hc : ch = .pulse1
    · exact .inr (.inr ⟨hc, .inr rfl⟩)
    · obtain ⟨b, -, e⟩ := chen_runFrame s
      rw [effect_run, e, Quad.get_set_other _ _ hc] at h
      exact .inl h
  case reset => exact .inr (.inl rfl)
  all_goals exact .inl h

/-- Settles O16: the flags of the entered state, through the effect. -/
theorem flagsHaveTheirWriters : Obligations.FlagsHaveTheirWriters := by
  intro i s t h
  obtain ⟨r, rfl⟩ := exec_next h
  exact ⟨fun _ => chen_of_chen_effect_true, fun _ => chen_of_chen_effect_false, pending_effect_entered_iff i s⟩

/-! ### The programmable registers (R53, 20_memory.md R65, 43_mixer_synth.md R209) -/

/-- The register or wave RAM byte that a `WR` names (20_memory.md R61). -/
def written : Instr → Option Item
  | .wrFreq1 _ => some .freq1
  | .wrDuty1 _ => some .duty1
  | .wrEnv1 _ => some .env1
  | .wrPan1 _ => some (.pan .pulse1)
  | .wrMixen1 _ => some (.mixen .pulse1)
  | .wrSweep _ => some .sweep
  | .wrFreq2 _ => some .freq2
  | .wrDuty2 _ => some .duty2
  | .wrEnv2 _ => some .env2
  | .wrPan2 _ => some (.pan .pulse2)
  | .wrMixen2 _ => some (.mixen .pulse2)
  | .wrFreq3 _ => some .freq3
  | .wrWvol _ => some .wvol
  | .wrPan3 _ => some (.pan .wave)
  | .wrMixen3 _ => some (.mixen .wave)
  | .wrNctrl _ => some .nctrl
  | .wrEnv4 _ => some .env4
  | .wrPan4 _ => some (.pan .noise)
  | .wrMixen4 _ => some (.mixen .noise)
  | .wrMvol _ _ => some .mvol
  | .wrWave k _ => some (.waveByte k.toFin)
  | _ => none

theorem item_setPan_of_ne {ch : Channel} {x : Item} (hx : x ≠ .pan ch) (d : BitVec 2) (s : State) :
    item { s with pan := s.pan.set ch d } x = item s x := by
  cases x
  case pan c =>
    have hc : c ≠ ch := fun e => hx (congrArg Item.pan e)
    exact Value.num_toNat_congr (Quad.get_set_other s.pan d hc)
  all_goals rfl

theorem item_setMixen_of_ne {ch : Channel} {x : Item} (hx : x ≠ .mixen ch) (d : BitVec 1) (s : State) :
    item { s with mixen := s.mixen.set ch d } x = item s x := by
  cases x
  case mixen c =>
    have hc : c ≠ ch := fun e => hx (congrArg Item.mixen e)
    exact Value.num_toNat_congr (Quad.get_set_other s.mixen d hc)
  all_goals rfl

theorem item_setWaveByte_of_ne {k : BitVec 4} {x : Item} (hx : x ≠ .waveByte k.toFin) (d : BitVec 8) (s : State) :
    item (setWaveByte k d s) x = item s x := by
  cases x
  case waveByte j =>
    have hj : j.val ≠ k.toNat := fun e => hx (congrArg Item.waveByte (Fin.ext e))
    exact Value.num_toNat_congr (Memory.read_write_other s.wave.ram hj d)
  all_goals rfl

/-- A `WR` changes the one item it names (40_register_access.md R100). -/
theorem item_effect_of_written {i : Instr} {x y : Item} (hi : written i = some y) (hx : x ≠ y) (s : State) :
    item (effect i s) x = item s x := by
  cases i <;> cases hi
  case wrPan1 d => exact item_setPan_of_ne hx d s
  case wrPan2 d => exact item_setPan_of_ne hx d s
  case wrPan3 d => exact item_setPan_of_ne hx d s
  case wrPan4 d => exact item_setPan_of_ne hx d s
  case wrMixen1 d => exact item_setMixen_of_ne hx d s
  case wrMixen2 d => exact item_setMixen_of_ne hx d s
  case wrMixen3 d => exact item_setMixen_of_ne hx d s
  case wrMixen4 d => exact item_setMixen_of_ne hx d s
  case wrWave k d => exact item_setWaveByte_of_ne hx d s
  all_goals cases x <;> first | rfl | exact absurd rfl hx

/-! Below, an item is kept by definition (`rfl`) or not programmable (`cases hx`), but for the cases that are named. -/

section
variable {x : Item} (hx : x.programmable = true)
include hx

theorem programmable_trigger (p : Config.Params) (ch : Channel) (s : State) :
    item (trigger p ch s) x = item s x := by
  cases ch <;> cases x <;> first | rfl | cases hx

theorem programmable_advance (p : Config.Params) (ch : Channel) (c : Rat) (s : State) :
    item (advance p ch c s) x = item s x := by
  cases ch <;> cases x <;> first | rfl | cases hx

theorem programmable_envTick1 (p : Config.Params) (s : State) : item (envTick1 p s) x = item s x := by
  cases x
  case env1 => exact Value.num_toNat_congr (Envelope.tick_reg p s.pulse1.env)
  all_goals first | rfl | cases hx

theorem programmable_envTick2 (p : Config.Params) (s : State) : item (envTick2 p s) x = item s x := by
  cases x
  case env2 => exact Value.num_toNat_congr (Envelope.tick_reg p s.pulse2.env)
  all_goals first | rfl | cases hx

theorem programmable_envTick4 (p : Config.Params) (s : State) : item (envTick4 p s) x = item s x := by
  cases x
  case env4 => exact Value.num_toNat_congr (Envelope.tick_reg p s.noise.env)
  all_goals first | rfl | cases hx

/-- A sweep tick may write back to `FREQ[0]` (42_modulators.md R178), and keeps every other register. -/
theorem programmable_sweepTick (p : Config.Params) (h1 : x ≠ .freq1) (s : State) :
    item (sweepTick p s) x = item s x := by
  obtain ⟨_, _, _, hw, _, e⟩ := sweepTick_touches p s
  rw [e]
  cases x
  case freq1 => exact absurd rfl h1
  case sweep => exact Value.num_toNat_congr hw
  all_goals first | rfl | cases hx

theorem programmable_modulatorTicks (p : Config.Params) (h1 : x ≠ .freq1) (s : State) :
    item (modulatorTicks p s) x = item s x := by
  rw [modulatorTicks, programmable_sweepTick hx p h1, programmable_envTick4 hx, programmable_envTick2 hx,
    programmable_envTick1 hx]

/-- After its ticks a frame writes no register (43_mixer_synth.md R209). -/
theorem programmable_runFrame (h1 : x ≠ .freq1) (s : State) : item (runFrame Config.params s) x = item s x := by
  obtain ⟨_, ⟨_, _, _, _, _, _, _, _, rfl⟩, e⟩ := runFrame_touches s
  rw [e, ← programmable_modulatorTicks hx Config.params h1 s]
  cases x <;> first | rfl | cases hx

/-- Of the instructions that are no `WR`, only `RESET` and the sweep ticks of `STICK` and `RUN` write a register. -/
theorem programmable_effect {i : Instr} (hi : written i = none) (hreset : i ≠ .reset)
    (htick : x = .freq1 → i ≠ .stick ∧ i ≠ .run) (s : State) : item (effect i s) x = item s x := by
  cases i <;> cases hi
  case trig ch => exact programmable_trigger hx _ ch s
  case gstep ch c => exact programmable_advance hx _ ch _ s
  case etick0 => exact programmable_envTick1 hx _ s
  case etick1 => exact programmable_envTick2 hx _ s
  case etick3 => exact programmable_envTick4 hx _ s
  case stick => exact programmable_sweepTick hx _ (fun e => (htick e).1 rfl) s
  case run => exact programmable_runFrame hx (fun e => (htick e).2 rfl) s
  case reset => exact absurd rfl hreset
  case setfps v => cases x <;> first | rfl | cases hx
  case setrate v => cases x <;> first | rfl | cases hx
  all_goals rfl

end

/-- Settles O15: an instruction that is no `WR` writes `FREQ[0]` at a sweep tick or is `RESET`; a `WR` writes the item
it names. -/
theorem programmableRegistersHaveOneWriter : Obligations.ProgrammableRegistersHaveOneWriter := by
  intro i s t x h hx hne
  obtain ⟨r, rfl⟩ := exec_next h
  rw [item_respond] at hne
  cases hi : written i with
  | none =>
    by_contra hother
    push Not at hother
    obtain ⟨hreset, htick, -⟩ := hother
    exact hne (programmable_effect hx hi hreset htick _)
  | some y =>
    obtain rfl : x = y := by
      by_contra hxy
      exact hne (item_effect_of_written hi hxy _)
    right
    right
    cases i <;> cases hi
    case some.wrMvol.refl l r => exact ⟨l, r, rfl⟩
    case some.wrWave.refl k d => exact ⟨d, by simp⟩
    all_goals exact ⟨_, rfl⟩

end Sys2Proof.Machine
end

section
/-! PROOF. The address map (20_memory.md R61) and the rejections it decides (30_encoding.md R90). First the lemmas of
each statement, then the statement. -/

namespace Sys2Proof.Machine

/-! ### The addresses of the map (20_memory.md R61) -/

/-- The upper half of an address by its number: the wave RAM stands at 0x80 to 0x8F. -/
theorem extractLsb_high_eq_iff (a : BitVec 8) : a.extractLsb' 4 4 = 0x8#4 ↔ a.toNat / 16 = 8 := by
  have ha := a.isLt
  rw [← BitVec.toNat_inj, BitVec.extractLsb'_toNat, Nat.shiftRight_eq_div_pow, BitVec.toNat_ofNat]
  omega

theorem ite_high_eq_none_iff {α : Type} (a : BitVec 8) (x : α) :
    (if a.extractLsb' 4 4 = 0x8#4 then some x else none) = none ↔ a.toNat / 16 ≠ 8 := by
  rw [Ne, ← extractLsb_high_eq_iff]
  split <;> simp_all

/-- Every listed address has an arm of its own in the table, and the last arm is the wave RAM. -/
theorem writePoint_eq_none_iff (p : Config.Params) (a : BitVec 8) : writePoint p a = none ↔
    a.toNat ∉ [0x00, 0x01, 0x02, 0x03, 0x04, 0x05, 0x10, 0x11, 0x12, 0x13, 0x14, 0x20, 0x21, 0x23, 0x24, 0x30, 0x32,
      0x33, 0x34, 0x40] ∧ a.toNat / 16 ≠ 8 := by
  unfold writePoint
  split
  case h_21 =>
    rw [ite_high_eq_none_iff, iff_and_self]
    intro _ hmem
    simp_all only [BitVec.toNat_eq, BitVec.toNat_ofNat, Nat.reducePow, Nat.reduceMod, List.mem_cons,
      List.not_mem_nil, or_false, imp_false]
  all_goals exact iff_of_false (Option.some_ne_none _) fun h => h.1 (by decide)

/-- The listed addresses are those of `writePoint` and the ten read-only registers; the last arm is the wave RAM. -/
theorem readPoint_eq_none_iff (a : BitVec 8) : readPoint a = none ↔
    a.toNat ∉ [0x00, 0x01, 0x02, 0x03, 0x04, 0x05, 0x06, 0x07, 0x08, 0x10, 0x11, 0x12, 0x13, 0x14, 0x17, 0x18,
      0x20, 0x21, 0x23, 0x24, 0x27, 0x30, 0x32, 0x33, 0x34, 0x36, 0x37, 0x38, 0x40, 0x41] ∧ a.toNat / 16 ≠ 8 := by
  unfold readPoint
  split
  case h_31 =>
    rw [ite_high_eq_none_iff, iff_and_self]
    intro _ hmem
    simp_all only [BitVec.toNat_eq, BitVec.toNat_ofNat, Nat.reducePow, Nat.reduceMod, List.mem_cons,
      List.not_mem_nil, or_false, imp_false]
  all_goals exact iff_of_false (Option.some_ne_none _) fun h => h.1 (by decide)

/-! ### The illegal addresses (30_encoding.md R90) -/

theorem decodeWr_eq_illegalAddress_iff (p : Config.Params) (a : BitVec 8) (d : BitVec 16) :
    decodeWr p a d = .bad .illegalAddress ↔ writePoint p a = none := by
  unfold decodeWr
  split
  case h_1 hnone => simp [hnone]
  case h_2 r hr => split <;> simp [hr]

theorem decodeRd_eq_illegalAddress_iff (a : BitVec 8) (d : BitVec 16) :
    decodeRd a d = .bad .illegalAddress ↔ d = 0 ∧ readPoint a = none := by
  unfold decodeRd
  split
  case isTrue hd =>
    split
    case h_1 i hi => simp [hi]
    case h_2 hnone => simp [hd, hnone]
  case isFalse hd => exact iff_of_false (by simp) fun h => hd h.1

/-- Settles O9: the address decides a `WR`, the reserved half and then the address an `RD`, and each table leaves out
exactly the addresses that R61 does not give. -/
theorem addressMapIsTheSpecs : Obligations.AddressMapIsTheSpecs := by
  constructor
  · intro a d
    rw [decode_wr, decodeWr_eq_illegalAddress_iff, writePoint_eq_none_iff]
  · intro a d
    rw [decode_rd, decodeRd_eq_illegalAddress_iff, readPoint_eq_none_iff]

end Sys2Proof.Machine
end

section
/-! PROOF. The encoder and the decoder are each other's way back, the rows of the opcode table, and the checks of the
formats (30_encoding.md R80 to R91). First the lemmas of each statement, then the statement. -/

namespace Sys2Proof.Machine

/-! ### The decoder by the opcode (30_encoding.md R86) -/

theorem decode_trig (c : BitVec 8) (a : BitVec 16) :
    decode (wordOf 0x10#8 c a) = needZero a ((channelOf c).map .trig) := by
  simp [decode, decodeWith]

theorem decode_gstep (c : BitVec 8) (a : BitVec 16) :
    decode (wordOf 0x11#8 c a) = needZero 0#0 ((channelOf c).map fun ch => .gstep ch a) := by
  simp [decode, decodeWith]

theorem decode_etick (c : BitVec 8) (a : BitVec 16) :
    decode (wordOf 0x12#8 c a) = needZero a (etickOf c) := by
  simp [decode, decodeWith]

theorem decode_stick (z : BitVec 24) : decode (immWordOf 0x13#8 z) = needZero z (some .stick) := by
  simp [decode, decodeWith]

theorem decode_mix (z : BitVec 24) : decode (immWordOf 0x20#8 z) = needZero z (some .mix) := by
  simp [decode, decodeWith]

theorem decode_run (z : BitVec 24) : decode (immWordOf 0x30#8 z) = needZero z (some .run) := by
  simp [decode, decodeWith]

theorem decode_reset (z : BitVec 24) : decode (immWordOf 0x31#8 z) = needZero z (some .reset) := by
  simp [decode, decodeWith]

theorem decode_rdpcm (k : BitVec 24) : decode (immWordOf 0x03#8 k) = .instr (.rdpcm k) := by
  simp [decode, decodeWith]

theorem decode_setfps (v : BitVec 24) : decode (immWordOf 0x32#8 v) = .instr (.setfps v) := by
  simp [decode, decodeWith]

theorem decode_setrate (v : BitVec 24) : decode (immWordOf 0x33#8 v) = .instr (.setrate v) := by
  simp [decode, decodeWith]

/-! ### The word of an instruction decodes to it -/

theorem needZero_zero {n : Nat} (i : Instr) : needZero (0 : BitVec n) (some i) = .instr i := by
  simp [needZero]

theorem channelOf_channelNumber (ch : Channel) : channelOf (channelNumber ch) = some ch := by
  cases ch <;> rfl

theorem decodeWr_of_legal {p : Config.Params} {a : BitVec 8} {legal d : BitVec 16} {make : BitVec 16 → Instr}
    (hr : writePoint p a = some ⟨legal, make⟩) (hd : d &&& ~~~legal = 0) : decodeWr p a d = .instr (make d) := by
  simp only [decodeWr, hr, hd, if_true]

theorem decodeRd_of_readPoint {a : BitVec 8} {i : Instr} (hi : readPoint a = some i) : decodeRd a 0 = .instr i := by
  simp only [decodeRd, hi, if_true]

/-- A write point of `n` bits takes every value of `n` bits (20_memory.md R61). -/
theorem decodeWr_register {p : Config.Params} {a : BitVec 8} {n : Nat} (hn : n ≤ 16) {mk : BitVec n → Instr}
    (hr : writePoint p a = some ⟨BitVec.ofNat 16 (2 ^ n - 1), fun d => mk (d.extractLsb' 0 n)⟩) (d : BitVec n) :
    decodeWr p a (d.setWidth 16) = .instr (mk d) := by
  have hlegal : d.setWidth 16 &&& ~~~(BitVec.ofNat 16 (2 ^ n - 1)) = 0 := by
    rw [and_not_lowMask, BitVec.toNat_setWidth]
    exact (Nat.mod_le _ _).trans_lt d.isLt
  rw [decodeWr_of_legal hr hlegal, extractLsb_setWidth d hn]

/-- `MVOL`'s two levels are its legal data, and come back (40_register_access.md R120). -/
theorem mvolData_fields (l r : BitVec 3) :
    (l.setWidth 16 <<< 4 ||| r.setWidth 16) &&& ~~~0x0077#16 = 0 ∧
      (l.setWidth 16 <<< 4 ||| r.setWidth 16).extractLsb' 4 3 = l ∧
      (l.setWidth 16 <<< 4 ||| r.setWidth 16).extractLsb' 0 3 = r := by
  revert l r
  decide

theorem decodeWr_mvol (p : Config.Params) (l r : BitVec 3) :
    decodeWr p 0x40#8 (l.setWidth 16 <<< 4 ||| r.setWidth 16) = .instr (.wrMvol l r) := by
  obtain ⟨hlegal, hl, hr⟩ := mvolData_fields l r
  rw [decodeWr_of_legal rfl hlegal, hl, hr]

/-- The addresses 0x80 to 0x8F are the wave RAM's: no other arm of the map has them (20_memory.md R61). -/
theorem writePoint_of_high (p : Config.Params) {a : BitVec 8} (ha : a.extractLsb' 4 4 = 0x8#4) :
    writePoint p a = some ⟨0x00FF#16, fun d => .wrWave (a.extractLsb' 0 4) (d.extractLsb' 0 8)⟩ := by
  unfold writePoint
  split
  case h_21 => rw [if_pos ha]
  all_goals exact absurd ha (by decide)

theorem readPoint_of_high {a : BitVec 8} (ha : a.extractLsb' 4 4 = 0x8#4) :
    readPoint a = some (.rdWave (a.extractLsb' 0 4)) := by
  unfold readPoint
  split
  case h_31 => rw [if_pos ha]
  all_goals exact absurd ha (by decide)

theorem waveAddr_fields (k : BitVec 4) :
    (0x80#8 ||| k.setWidth 8).extractLsb' 4 4 = 0x8#4 ∧ (0x80#8 ||| k.setWidth 8).extractLsb' 0 4 = k := by
  revert k
  decide

theorem decodeWr_wave (p : Config.Params) (k : BitVec 4) (d : BitVec 8) :
    decodeWr p (0x80#8 ||| k.setWidth 8) (d.setWidth 16) = .instr (.wrWave k d) := by
  obtain ⟨hhigh, hlow⟩ := waveAddr_fields k
  have hr := writePoint_of_high p hhigh
  rw [hlow] at hr
  exact decodeWr_register (mk := .wrWave k) (by decide) hr d

theorem decodeRd_wave (k : BitVec 4) : decodeRd (0x80#8 ||| k.setWidth 8) 0 = .instr (.rdWave k) := by
  obtain ⟨hhigh, hlow⟩ := waveAddr_fields k
  rw [decodeRd_of_readPoint (readPoint_of_high hhigh), hlow]

/-- Settles O5, format by format: a register is found at its address and takes its operand, a channel at its number,
and an immediate is the operand. -/
theorem decodeOfEncode : Obligations.DecodeOfEncode := by
  intro i
  cases i
  case wrMvol l r => exact (decode_wr _ _).trans (decodeWr_mvol _ l r)
  case wrWave k d => exact (decode_wr _ _).trans (decodeWr_wave _ k d)
  case wrFreq1 d | wrFreq2 d | wrFreq3 d | wrDuty1 d | wrDuty2 d | wrWvol d | wrEnv1 d | wrEnv2 d | wrEnv4 d |
      wrPan1 d | wrPan2 d | wrPan3 d | wrPan4 d | wrMixen1 d | wrMixen2 d | wrMixen3 d | wrMixen4 d | wrSweep d |
      wrNctrl d =>
    exact (decode_wr _ _).trans (decodeWr_register (by decide) rfl d)
  case rdWave k => exact (decode_rd _ _).trans (decodeRd_wave k)
  case rdpcm k => exact decode_rdpcm k
  case trig ch => rw [encode, decode_trig, channelOf_channelNumber]; exact needZero_zero _
  case gstep ch c => rw [encode, decode_gstep, channelOf_channelNumber]; exact needZero_zero _
  case etick0 | etick1 | etick3 => exact (decode_etick _ _).trans (needZero_zero _)
  case stick => exact (decode_stick _).trans (needZero_zero _)
  case mix => exact (decode_mix _).trans (needZero_zero _)
  case run => exact (decode_run _).trans (needZero_zero _)
  case reset => exact (decode_reset _).trans (needZero_zero _)
  case setfps v => exact decode_setfps v
  case setrate v => exact decode_setrate v
  all_goals exact (decode_rd _ _).trans (decodeRd_of_readPoint rfl)


/-! ### A word that decodes is the word of its instruction -/

theorem wordOf_of_opcode {w : Word} {op : BitVec 8} (h : opcodeField w = op) :
    wordOf op (addrField w) (dataField w) = w := by
  subst h
  exact wordOf_fields w

theorem immWordOf_of_opcode {w : Word} {op : BitVec 8} (h : opcodeField w = op) : immWordOf op (immField w) = w := by
  subst h
  exact immWordOf_fields w

/-- A command of format Z: its low 24 bits are zero and are not lost. -/
theorem encode_of_needZero_imm {z : BitVec 24} {op : BitVec 8} {i j : Instr} (hj : encode j = immWordOf op 0)
    (h : needZero z (some j) = .instr i) : encode i = immWordOf op z := by
  obtain ⟨hi, rfl⟩ := of_needZero h
  cases hi
  exact hj

theorem encode_of_decode_trig {c : BitVec 8} {a : BitVec 16} {i : Instr}
    (h : needZero a ((channelOf c).map .trig) = .instr i) : encode i = wordOf 0x10#8 c a := by
  obtain ⟨hi, rfl⟩ := of_needZero h
  obtain ⟨ch, hch, rfl⟩ := Option.map_eq_some_iff.mp hi
  rw [encode, channelNumber_of_channelOf hch]
  rfl

theorem encode_of_decode_gstep {c : BitVec 8} {a : BitVec 16} {i : Instr}
    (h : needZero 0#0 ((channelOf c).map fun ch => .gstep ch a) = .instr i) : encode i = wordOf 0x11#8 c a := by
  obtain ⟨hi, -⟩ := of_needZero h
  obtain ⟨ch, hch, rfl⟩ := Option.map_eq_some_iff.mp hi
  rw [encode, channelNumber_of_channelOf hch]

theorem encode_of_decode_etick {c : BitVec 8} {a : BitVec 16} {i : Instr}
    (h : needZero a (etickOf c) = .instr i) : encode i = wordOf 0x12#8 c a := by
  obtain ⟨hi, rfl⟩ := of_needZero h
  exact encode_of_etickOf hi

/-- Settles O6, opcode by opcode: the fields that the decoder read are those of the word. -/
theorem encodeOfDecode : Obligations.EncodeOfDecode := by
  intro w i h
  unfold decode decodeWith at h
  split at h
  case h_1 hop => exact (encode_of_decodeWr h).trans (wordOf_of_opcode hop)
  case h_2 hop => exact (encode_of_decodeRd h).trans (wordOf_of_opcode hop)
  case h_3 hop | h_11 hop | h_12 hop => cases h; exact immWordOf_of_opcode hop
  case h_4 hop => exact (encode_of_decode_trig h).trans (wordOf_of_opcode hop)
  case h_5 hop => exact (encode_of_decode_gstep h).trans (wordOf_of_opcode hop)
  case h_6 hop => exact (encode_of_decode_etick h).trans (wordOf_of_opcode hop)
  case h_7 hop | h_8 hop | h_9 hop | h_10 hop => exact (encode_of_needZero_imm rfl h).trans (immWordOf_of_opcode hop)
  case h_13 => cases h

/-! ### The rows of the opcode table (30_encoding.md R91) -/

/-- A word matches a row of format W, R or C by its opcode and the masked parts of its two other fields. -/
theorem and_wordOf_eq_iff (w : Word) (op b b' : BitVec 8) (c c' : BitVec 16) :
    w &&& wordOf 0xFF#8 b c = wordOf op b' c' ↔
      opcodeField w = op ∧ addrField w &&& b = b' ∧ dataField w &&& c = c' := by
  have hop : opcodeField w &&& 0xFF#8 = opcodeField w := BitVec.and_allOnes
  conv_lhs => rw [← wordOf_fields w, wordOf_and_wordOf, hop]
  exact ⟨wordOf_inj, fun ⟨ha, hb, hc⟩ => by rw [ha, hb, hc]⟩

/-- A word matches a row of format I by its opcode alone. -/
theorem opcodeField_of_matches {w : Word} {op : BitVec 8} (h : w &&& 0xFF000000 = immWordOf op 0) :
    opcodeField w = op := by
  rw [← immWordOf_fields w, Laws.EncodedInRow.of_imm] at h
  simpa using congrArg opcodeField h

/-- The word of an instruction matches its row. -/
theorem encode_matches_row : (i : Instr) → i.row.Matches (encode i)
  | .wrFreq1 d => Laws.EncodedInRow.wrFreq1 d
  | .wrDuty1 d => Laws.EncodedInRow.wrDuty1 d
  | .wrEnv1 d => Laws.EncodedInRow.wrEnv1 d
  | .wrPan1 d => Laws.EncodedInRow.wrPan1 d
  | .wrMixen1 d => Laws.EncodedInRow.wrMixen1 d
  | .wrSweep d => Laws.EncodedInRow.wrSweep d
  | .wrFreq2 d => Laws.EncodedInRow.wrFreq2 d
  | .wrDuty2 d => Laws.EncodedInRow.wrDuty2 d
  | .wrEnv2 d => Laws.EncodedInRow.wrEnv2 d
  | .wrPan2 d => Laws.EncodedInRow.wrPan2 d
  | .wrMixen2 d => Laws.EncodedInRow.wrMixen2 d
  | .wrFreq3 d => Laws.EncodedInRow.wrFreq3 d
  | .wrWvol d => Laws.EncodedInRow.wrWvol d
  | .wrPan3 d => Laws.EncodedInRow.wrPan3 d
  | .wrMixen3 d => Laws.EncodedInRow.wrMixen3 d
  | .wrNctrl d => Laws.EncodedInRow.wrNctrl d
  | .wrEnv4 d => Laws.EncodedInRow.wrEnv4 d
  | .wrPan4 d => Laws.EncodedInRow.wrPan4 d
  | .wrMixen4 d => Laws.EncodedInRow.wrMixen4 d
  | .wrMvol l r => Laws.EncodedInRow.wrMvol l r
  | .wrWave k d => Laws.EncodedInRow.wrWave k d
  | .rdFreq1 => Laws.EncodedInRow.rdFreq1
  | .rdDuty1 => Laws.EncodedInRow.rdDuty1
  | .rdEnv1 => Laws.EncodedInRow.rdEnv1
  | .rdPan1 => Laws.EncodedInRow.rdPan1
  | .rdMixen1 => Laws.EncodedInRow.rdMixen1
  | .rdSweep => Laws.EncodedInRow.rdSweep
  | .rdShadow => Laws.EncodedInRow.rdShadow
  | .rdOut1 => Laws.EncodedInRow.rdOut1
  | .rdEvol1 => Laws.EncodedInRow.rdEvol1
  | .rdFreq2 => Laws.EncodedInRow.rdFreq2
  | .rdDuty2 => Laws.EncodedInRow.rdDuty2
  | .rdEnv2 => Laws.EncodedInRow.rdEnv2
  | .rdPan2 => Laws.EncodedInRow.rdPan2
  | .rdMixen2 => Laws.EncodedInRow.rdMixen2
  | .rdOut2 => Laws.EncodedInRow.rdOut2
  | .rdEvol2 => Laws.EncodedInRow.rdEvol2
  | .rdFreq3 => Laws.EncodedInRow.rdFreq3
  | .rdWvol => Laws.EncodedInRow.rdWvol
  | .rdPan3 => Laws.EncodedInRow.rdPan3
  | .rdMixen3 => Laws.EncodedInRow.rdMixen3
  | .rdOut3 => Laws.EncodedInRow.rdOut3
  | .rdNctrl => Laws.EncodedInRow.rdNctrl
  | .rdEnv4 => Laws.EncodedInRow.rdEnv4
  | .rdPan4 => Laws.EncodedInRow.rdPan4
  | .rdMixen4 => Laws.EncodedInRow.rdMixen4
  | .rdLfsr => Laws.EncodedInRow.rdLfsr
  | .rdOut4 => Laws.EncodedInRow.rdOut4
  | .rdEvol4 => Laws.EncodedInRow.rdEvol4
  | .rdMvol => Laws.EncodedInRow.rdMvol
  | .rdStatus => Laws.EncodedInRow.rdStatus
  | .rdWave k => Laws.EncodedInRow.rdWave k
  | .rdpcm k => Laws.EncodedInRow.rdpcm k
  | .trig ch => Laws.EncodedInRow.trig ch
  | .gstep ch c => Laws.EncodedInRow.gstep ch c
  | .etick0 => Laws.EncodedInRow.etick0
  | .etick1 => Laws.EncodedInRow.etick1
  | .etick3 => Laws.EncodedInRow.etick3
  | .stick => Laws.EncodedInRow.stick
  | .mix => Laws.EncodedInRow.mix
  | .run => Laws.EncodedInRow.run
  | .reset => Laws.EncodedInRow.reset
  | .setfps v => Laws.EncodedInRow.setfps v
  | .setrate v => Laws.EncodedInRow.setrate v

/-- `w` decodes to an instruction of the row `r`. -/
def DecodesInto (w : Word) (r : Row) : Prop := ∃ i, decode w = .instr i ∧ i.row = r

/-- A row whose mask takes all bits has one word, that of its instruction. -/
theorem decodesInto_of_exact {w : Word} {j : Instr} (hmask : j.row.mask = BitVec.allOnes 32) (h : j.row.Matches w) :
    DecodesInto w j.row := by
  have he := encode_matches_row j
  rw [Row.Matches, hmask, BitVec.and_allOnes] at h he
  exact ⟨j, by rw [h, ← he, decodeOfEncode j], rfl⟩

/-- A row of format W: the opcode, an address, and the data bits that its write point has. -/
theorem decodesInto_of_writePoint {w : Word} {r : Row} {a : BitVec 8} {legal : BitVec 16} {make : BitVec 16 → Instr}
    (hr : writePoint Config.params a = some ⟨legal, make⟩)
    (hw : w &&& wordOf 0xFF#8 0xFF#8 (~~~legal) = wordOf 0x01#8 a 0) (hrow : ∀ d, (make d).row = r) :
    DecodesInto w r := by
  obtain ⟨hop, haddr, hdata⟩ := (and_wordOf_eq_iff ..).mp hw
  have hdecode := decode_wr (addrField w) (dataField w)
  have ha : addrField w = a := BitVec.and_allOnes.symm.trans haddr
  rw [wordOf_of_opcode hop, ha, decodeWr_of_legal hr hdata] at hdecode
  exact ⟨_, hdecode, hrow _⟩

/-- The addresses 0x80 to 0x8F by the row's mask. -/
theorem high_of_mask {a : BitVec 8} (h : a &&& 0xF0#8 = 0x80#8) : a.extractLsb' 4 4 = 0x8#4 := by
  revert a
  decide

/-- The channel numbers 0 to 3 by the row's mask. -/
theorem channelOf_of_mask {c : BitVec 8} (h : c &&& 0xFC#8 = 0) : ∃ ch, channelOf c = some ch := by
  rw [← Option.isSome_iff_exists]
  revert c
  decide

theorem decodesInto_wrWave {w : Word} (hw : w &&& wordOf 0xFF#8 0xF0#8 0xFF00#16 = wordOf 0x01#8 0x80#8 0) :
    DecodesInto w ⟨0x01800000, 0xFFF0FF00⟩ := by
  obtain ⟨hop, haddr, hdata⟩ := (and_wordOf_eq_iff ..).mp hw
  have hdecode := decode_wr (addrField w) (dataField w)
  rw [wordOf_of_opcode hop, decodeWr_of_legal (writePoint_of_high _ (high_of_mask haddr)) hdata] at hdecode
  exact ⟨_, hdecode, rfl⟩

theorem decodesInto_rdWave {w : Word} (hw : w &&& wordOf 0xFF#8 0xF0#8 0xFFFF#16 = wordOf 0x02#8 0x80#8 0) :
    DecodesInto w ⟨0x02800000, 0xFFF0FFFF⟩ := by
  obtain ⟨hop, haddr, hdata⟩ := (and_wordOf_eq_iff ..).mp hw
  have hdecode := decode_rd (addrField w) (dataField w)
  have hd : dataField w = 0 := BitVec.and_allOnes.symm.trans hdata
  rw [wordOf_of_opcode hop, hd, decodeRd_of_readPoint (readPoint_of_high (high_of_mask haddr))] at hdecode
  exact ⟨_, hdecode, rfl⟩

theorem decodesInto_trig {w : Word} (hw : w &&& wordOf 0xFF#8 0xFC#8 0xFFFF#16 = wordOf 0x10#8 0 0) :
    DecodesInto w ⟨0x10000000, 0xFFFCFFFF⟩ := by
  obtain ⟨hop, hc, hdata⟩ := (and_wordOf_eq_iff ..).mp hw
  obtain ⟨ch, hch⟩ := channelOf_of_mask hc
  have hdecode := decode_trig (addrField w) (dataField w)
  have hd : dataField w = 0 := BitVec.and_allOnes.symm.trans hdata
  rw [wordOf_of_opcode hop, hd, hch] at hdecode
  exact ⟨_, hdecode.trans (needZero_zero _), rfl⟩

theorem decodesInto_gstep {w : Word} (hw : w &&& wordOf 0xFF#8 0xFC#8 0 = wordOf 0x11#8 0 0) :
    DecodesInto w ⟨0x11000000, 0xFFFC0000⟩ := by
  obtain ⟨hop, hc, -⟩ := (and_wordOf_eq_iff ..).mp hw
  obtain ⟨ch, hch⟩ := channelOf_of_mask hc
  have hdecode := decode_gstep (addrField w) (dataField w)
  rw [wordOf_of_opcode hop, hch] at hdecode
  exact ⟨_, hdecode.trans (needZero_zero _), rfl⟩

/-- A row of format I: every immediate is an operand. -/
theorem decodesInto_of_imm {w : Word} {r : Row} {op : BitVec 8} {make : BitVec 24 → Instr}
    (hmake : ∀ z, decode (immWordOf op z) = .instr (make z)) (hw : w &&& 0xFF000000 = immWordOf op 0)
    (hrow : ∀ z, (make z).row = r) : DecodesInto w r :=
  ⟨_, (congrArg decode (immWordOf_of_opcode (opcodeField_of_matches hw))).symm.trans (hmake (immField w)), hrow _⟩

/-- A word that matches a row decodes into it, format by format; the last rows, those without an operand, have one word
each. -/
theorem decodesInto_of_matches {w : Word} {j : Instr} (h : j.row.Matches w) : DecodesInto w j.row := by
  cases j
  case wrFreq1 d => exact decodesInto_of_writePoint (a := 0x00#8) rfl h fun _ => rfl
  case wrDuty1 d => exact decodesInto_of_writePoint (a := 0x01#8) rfl h fun _ => rfl
  case wrEnv1 d => exact decodesInto_of_writePoint (a := 0x02#8) rfl h fun _ => rfl
  case wrPan1 d => exact decodesInto_of_writePoint (a := 0x03#8) rfl h fun _ => rfl
  case wrMixen1 d => exact decodesInto_of_writePoint (a := 0x04#8) rfl h fun _ => rfl
  case wrSweep d => exact decodesInto_of_writePoint (a := 0x05#8) rfl h fun _ => rfl
  case wrFreq2 d => exact decodesInto_of_writePoint (a := 0x10#8) rfl h fun _ => rfl
  case wrDuty2 d => exact decodesInto_of_writePoint (a := 0x11#8) rfl h fun _ => rfl
  case wrEnv2 d => exact decodesInto_of_writePoint (a := 0x12#8) rfl h fun _ => rfl
  case wrPan2 d => exact decodesInto_of_writePoint (a := 0x13#8) rfl h fun _ => rfl
  case wrMixen2 d => exact decodesInto_of_writePoint (a := 0x14#8) rfl h fun _ => rfl
  case wrFreq3 d => exact decodesInto_of_writePoint (a := 0x20#8) rfl h fun _ => rfl
  case wrWvol d => exact decodesInto_of_writePoint (a := 0x21#8) rfl h fun _ => rfl
  case wrPan3 d => exact decodesInto_of_writePoint (a := 0x23#8) rfl h fun _ => rfl
  case wrMixen3 d => exact decodesInto_of_writePoint (a := 0x24#8) rfl h fun _ => rfl
  case wrNctrl d => exact decodesInto_of_writePoint (a := 0x30#8) rfl h fun _ => rfl
  case wrEnv4 d => exact decodesInto_of_writePoint (a := 0x32#8) rfl h fun _ => rfl
  case wrPan4 d => exact decodesInto_of_writePoint (a := 0x33#8) rfl h fun _ => rfl
  case wrMixen4 d => exact decodesInto_of_writePoint (a := 0x34#8) rfl h fun _ => rfl
  case wrMvol l r => exact decodesInto_of_writePoint (a := 0x40#8) rfl h fun _ => rfl
  case wrWave k d => exact decodesInto_wrWave h
  case rdWave k => exact decodesInto_rdWave h
  case trig ch => exact decodesInto_trig h
  case gstep ch c => exact decodesInto_gstep h
  case rdpcm k => exact decodesInto_of_imm decode_rdpcm h fun _ => rfl
  case setfps v => exact decodesInto_of_imm decode_setfps h fun _ => rfl
  case setrate v => exact decodesInto_of_imm decode_setrate h fun _ => rfl
  all_goals exact decodesInto_of_exact rfl h

/-- Settles O7: a decoded word is the word of its instruction (O6), which matches its row; and a match decides the
decoder's checks. -/
theorem decoderFollowsOpcodeTable : Obligations.DecoderFollowsOpcodeTable := by
  intro w
  constructor
  · intro i h
    have hi := encode_matches_row i
    rwa [encodeOfDecode w i h] at hi
  · exact fun j => decodesInto_of_matches

/-! ### The reserved opcodes (30_encoding.md R89) -/

theorem decodeWr_ne_illegalOpcode (p : Config.Params) (a : BitVec 8) (d : BitVec 16) :
    decodeWr p a d ≠ .bad .illegalOpcode := by
  unfold decodeWr
  split
  case h_1 => nofun
  case h_2 => split <;> nofun

theorem decodeRd_ne_illegalOpcode (a : BitVec 8) (d : BitVec 16) : decodeRd a d ≠ .bad .illegalOpcode := by
  unfold decodeRd
  split
  case isTrue => split <;> nofun
  case isFalse => nofun

theorem needZero_ne_illegalOpcode {n : Nat} (z : BitVec n) (i : Option Instr) : needZero z i ≠ .bad .illegalOpcode := by
  unfold needZero
  split
  case h_1 => split <;> nofun
  case h_2 => nofun

/-- Each of the twelve opcodes has an arm of its own, and no arm but the last gives this error. -/
theorem decode_eq_illegalOpcode_iff (w : Word) :
    decode w = .bad .illegalOpcode ↔ opcodeField w ∉ definedOpcodes := by
  unfold decode decodeWith
  split
  case h_13 => exact iff_of_true rfl (by simp_all [definedOpcodes])
  all_goals
    rename_i hop
    rw [hop]
    refine iff_of_false ?_ (by decide)
  case h_1 => exact decodeWr_ne_illegalOpcode _ _ _
  case h_2 => exact decodeRd_ne_illegalOpcode _ _
  case h_3 | h_11 | h_12 => nofun
  all_goals exact needZero_ne_illegalOpcode _ _

theorem opcodeField_toNat (w : Word) : (opcodeField w).toNat = w.toNat / 2 ^ 24 := by
  have hw := w.isLt
  rw [opcodeField, BitVec.extractLsb'_toNat, Nat.shiftRight_eq_div_pow]
  omega

theorem mem_definedOpcodes_iff (op : BitVec 8) : op ∈ definedOpcodes ↔
    op.toNat ∈ [0x01, 0x02, 0x03, 0x10, 0x11, 0x12, 0x13, 0x20, 0x30, 0x31, 0x32, 0x33] := by
  simp [definedOpcodes, BitVec.toNat_eq]

/-- Settles O8: the opcode decides, and a step on a presented word that does not decode faults. -/
theorem reservedOpcodesFault : Obligations.ReservedOpcodesFault := by
  constructor
  · intro w
    rw [decode_eq_illegalOpcode_iff, mem_definedOpcodes_iff, opcodeField_toNat]
  · intro w s hw
    exact (step_of_port_cons (present_port w s)).trans (command_of_bad hw _)

/-! ### The format fields (30_encoding.md R82, R83, R85, R88) -/

theorem needZero_eq_illegalOperand_iff {n : Nat} (z : BitVec n) (i : Option Instr) :
    needZero z i = .bad .illegalOperand ↔ i = none ∨ z ≠ 0 := by
  unfold needZero
  split
  case h_1 j => split <;> simp_all
  case h_2 => simp

/-- Format Z: the low 24 bits are zero (R85). -/
theorem needZero_some_eq_illegalOperand_iff {n : Nat} (z : BitVec n) (i : Instr) :
    needZero z (some i) = .bad .illegalOperand ↔ z ≠ 0 := by
  simp [needZero_eq_illegalOperand_iff]

theorem decodeRd_eq_illegalOperand_iff (a : BitVec 8) (d : BitVec 16) :
    decodeRd a d = .bad .illegalOperand ↔ d ≠ 0 := by
  unfold decodeRd
  split
  case isTrue hd => split <;> simp [hd]
  case isFalse hd => exact iff_of_true rfl hd

theorem channelOf_eq_none_iff (c : BitVec 8) : channelOf c = none ↔ 3 < c.toNat := by
  revert c
  decide

theorem etickOf_eq_none_iff (c : BitVec 8) : etickOf c = none ↔ 3 < c.toNat ∨ c.toNat = 2 := by
  revert c
  decide

/-- Settles O10, opcode by opcode. -/
theorem formatFieldsAreChecked : Obligations.FormatFieldsAreChecked := by
  refine ⟨fun c a => ?_, fun c a => ?_, fun c a => ?_, fun z => ?_, fun z => ?_, fun z => ?_, fun z => ?_,
    fun r a => ?_⟩
  · rw [decode_trig, needZero_eq_illegalOperand_iff, Option.map_eq_none_iff, channelOf_eq_none_iff]
  · rw [decode_gstep, needZero_eq_illegalOperand_iff, Option.map_eq_none_iff, channelOf_eq_none_iff]
    simp
  · rw [decode_etick, needZero_eq_illegalOperand_iff, etickOf_eq_none_iff, or_assoc]
  · rw [decode_stick, needZero_some_eq_illegalOperand_iff]
  · rw [decode_mix, needZero_some_eq_illegalOperand_iff]
  · rw [decode_run, needZero_some_eq_illegalOperand_iff]
  · rw [decode_reset, needZero_some_eq_illegalOperand_iff]
  · rw [decode_rd, decodeRd_eq_illegalOperand_iff]

/-- Settles O11: fourteen closed words. -/
theorem exampleWordsDecode : Obligations.ExampleWordsDecode := by
  unfold Obligations.ExampleWordsDecode
  decide

end Sys2Proof.Machine
end

section
/-! PROOF. The responses (30_encoding.md R92, 00_scope.md R13) and the pseudo-instructions (30_encoding.md R94). First
the lemmas of each statement, then the statement. -/

namespace Sys2Proof.Machine

/-! ### One response for every command (30_encoding.md R92) -/

/-- `t` has the command port and the responses of `s`. -/
structure SamePort (s t : State) : Prop where
  port : t.port = s.port
  responses : t.responses = s.responses

theorem samePort_sweepTick (p : Config.Params) (s : State) : SamePort s (sweepTick p s) := by
  obtain ⟨_, _, _, _, _, e⟩ := sweepTick_touches p s
  rw [e]
  exact ⟨rfl, rfl⟩

theorem samePort_runFrame (s : State) : SamePort s (runFrame Config.params s) := by
  obtain ⟨_, ⟨_, _, _, _, _, _, _, _, rfl⟩, e⟩ := runFrame_touches s
  obtain ⟨_, _, _, _, _, hm⟩ := modulatorTicks_touches Config.params s
  rw [e, hm]
  exact ⟨rfl, rfl⟩

/-- No effect takes a command or answers one. -/
theorem samePort_effect (i : Instr) (s : State) : SamePort s (effect i s) := by
  cases i
  case trig ch => cases ch <;> exact ⟨rfl, rfl⟩
  case gstep ch c => cases ch <;> exact ⟨rfl, rfl⟩
  case stick => exact samePort_sweepTick _ s
  case run => exact samePort_runFrame s
  all_goals exact ⟨rfl, rfl⟩

theorem samePort_entered (i : Instr) (s : State) : SamePort s (entered i s) := by
  rcases entered_cases i s with ⟨-, e⟩ | ⟨-, e⟩ <;> rw [e]
  · exact ⟨use_port _ s, use_responses _ s⟩
  · exact ⟨rfl, rfl⟩

theorem answered_effect (i : Instr) (s : State) (r : Word) : Answered s ((effect i (entered i s)).respond r) r :=
  have heffect := samePort_effect i (entered i s)
  have hentered := samePort_entered i s
  answered_respond r (heffect.responses.trans hentered.responses) (heffect.port.trans hentered.port)

/-! ### Which commands answer 0 -/

/-- The commands that answer a value of their own: `RD`, `RDPCM`, `MIX` and `RUN` (30_encoding.md R92). -/
def answersValue : Instr → Bool
  | .rdFreq1 | .rdDuty1 | .rdEnv1 | .rdPan1 | .rdMixen1 | .rdSweep | .rdShadow | .rdOut1 | .rdEvol1 | .rdFreq2
  | .rdDuty2 | .rdEnv2 | .rdPan2 | .rdMixen2 | .rdOut2 | .rdEvol2 | .rdFreq3 | .rdWvol | .rdPan3 | .rdMixen3 | .rdOut3
  | .rdNctrl | .rdEnv4 | .rdPan4 | .rdMixen4 | .rdLfsr | .rdOut4 | .rdEvol4 | .rdMvol | .rdStatus | .rdWave _ | .rdpcm _ | .mix
  | .run => true
  | _ => false

/-- What `exec_next` says, with the response 0 of the commands that answer no value. -/
theorem exec_next_zero {i : Instr} {s t : State} (hi : answersValue i = false) (h : exec i s = .next t) :
    t = (effect i (entered i s)).respond 0 := by
  cases i <;> cases hi
  case setfps => exact (setfps_next h).2
  case setrate => exact (setrate_next h).2
  all_goals
    cases h
    rfl

/-- The opcodes of `RD`, `RDPCM`, `MIX` and `RUN` (30_encoding.md R86). -/
theorem opcodeField_of_answersValue {i : Instr} (hi : answersValue i = true) :
    opcodeField (encode i) ∈ [0x02#8, 0x03#8, 0x20#8, 0x30#8] := by
  cases i <;> cases hi
  case rdpcm k => simp [encode]
  case mix => decide
  case run => decide
  all_goals simp [encode]

/-- The commands that R92 lists as answering 0 are none of those that answer a value: their opcodes are others. -/
theorem answersValue_of_word {i : Instr} (h : encode i = 0x13000000 ∨ encode i = 0x31000000 ∨
    (opcodeField (encode i)).toNat ∈ [0x01, 0x10, 0x11, 0x12, 0x32, 0x33]) : answersValue i = false := by
  by_contra hi
  have hop := opcodeField_of_answersValue (Bool.eq_true_of_not_eq_false hi)
  rcases h with h | h | h
  · rw [h] at hop
    revert hop
    decide
  · rw [h] at hop
    revert hop
    decide
  · revert h hop
    generalize opcodeField (encode i) = op
    revert op
    decide

/-- Settles O17: the one response that an instruction appends is 0 unless it answers a value. -/
theorem everyCommandAnswersOnce : Obligations.EveryCommandAnswersOnce := by
  intro i s t h
  cases hi : answersValue i with
  | false =>
    rw [exec_next_zero hi h]
    exact ⟨0, answered_effect i s 0, fun _ => rfl⟩
  | true =>
    obtain ⟨r, rfl⟩ := exec_next h
    exact ⟨r, answered_effect i s r, fun hw => absurd (answersValue_of_word hw) (by simp [hi])⟩

/-! ### A list of commands that use the block and answer 0 -/

/-- The commands that use the block and answer 0: they never fault after decoding. -/
def performs (i : Instr) : Bool := isUse i && !answersValue i

theorem exec_of_performs {i : Instr} (hi : performs i = true) (s : State) :
    exec i s = .next ((effect i (used s)).respond 0) := by
  cases i <;> cases hi
  all_goals rfl

theorem isUse_of_performs {i : Instr} (hi : performs i = true) : isUse i = true := (Bool.and_eq_true_iff.mp hi).1

/-- The effects of a list of commands, one after another, each with the response 0. -/
def performAll (is : List Instr) (s : State) : State := is.foldl (fun t i => (effect i t).respond 0) s

@[simp] theorem performAll_nil (s : State) : performAll [] s = s := rfl

@[simp] theorem performAll_cons (i : Instr) (is : List Instr) (s : State) :
    performAll (i :: is) s = performAll is ((effect i s).respond 0) := rfl

/-- Only the first of the commands can have a resize-and-reset to perform (43_mixer_synth.md R196). -/
theorem execAll_of_performs {is : List Instr} (h : ∀ i ∈ is, performs i = true) (hne : is ≠ []) (s : State) :
    execAll is s = .next (performAll is (used s)) := by
  induction is generalizing s with
  | nil => exact absurd rfl hne
  | cons i rest ih =>
    obtain ⟨hi, hrest⟩ := List.forall_mem_cons.mp h
    simp only [execAll, exec_of_performs hi, performAll_cons]
    have hpending : ((effect i (used s)).respond 0).pending = false :=
      pending_effect_used (isUse_of_performs hi) s
    cases rest with
    | nil => rfl
    | cons j rest => rw [ih hrest (List.cons_ne_nil _ _), used, use_of_not_pending _ hpending]

theorem performAll_port (is : List Instr) (s : State) : (performAll is s).port = s.port := by
  induction is generalizing s with
  | nil => rfl
  | cons i rest ih => exact (ih _).trans (samePort_effect i s).port

theorem performAll_responses (is : List Instr) (s : State) :
    (performAll is s).responses = s.responses ++ List.replicate is.length 0 := by
  induction is generalizing s with
  | nil => simp
  | cons i rest ih =>
    rw [performAll_cons, ih, respond_responses, (samePort_effect i s).responses]
    simp [List.replicate_succ]

theorem performs_of_mem_expand (q : Pseudo) : ∀ i ∈ expand q, performs i = true := by
  cases q with
  | ldwave b =>
    intro i hi
    obtain ⟨k, rfl⟩ := (List.mem_ofFn' _ _).mp hi
    rfl
  | note ch f => cases ch <;> exact List.forall_mem_cons.mpr ⟨rfl, List.forall_mem_singleton.mpr rfl⟩
  | modtick => decide

/-- A pseudo-instruction completes with the effects of its commands on the used state, and answers 0 for each. -/
theorem execAll_expand (q : Pseudo) (s : State) : ∃ t, execAll (expand q) s = .next t ∧
    t.responses = s.responses ++ List.replicate (expand q).length 0 ∧ t.port = s.port ∧
    t = performAll (expand q) (used s) := by
  have hne : expand q ≠ [] := by
    cases q with
    | ldwave b => simp [expand]
    | note ch f => cases ch <;> exact List.cons_ne_nil _ _
    | modtick => exact List.cons_ne_nil _ _
  refine ⟨_, execAll_of_performs (performs_of_mem_expand q) hne s, ?_, ?_, rfl⟩
  · rw [performAll_responses, use_responses]
  · rw [performAll_port, use_port]

/-! ### `LDWAVE`: sixteen writes -/

theorem item_performAll_of_written {is : List Instr} {x : Item} (h : ∀ i ∈ is, ∃ y, written i = some y ∧ x ≠ y)
    (s : State) : item (performAll is s) x = item s x := by
  induction is generalizing s with
  | nil => rfl
  | cons i rest ih =>
    obtain ⟨⟨y, hy, hx⟩, hrest⟩ := List.forall_mem_cons.mp h
    rw [performAll_cons, ih hrest, item_respond, item_effect_of_written hy hx]

/-- The writes of the bytes `b k` at the indices `k` of a list. -/
def loads (b : Fin 16 → Byte) (ks : List (Fin 16)) : List Instr := ks.map fun k => .wrWave (BitVec.ofFin k) (b k)

theorem expand_ldwave (b : Vector Byte 16) : expand (.ldwave b) = loads (b[·]) (List.finRange 16) := by
  exact List.ofFn_eq_map

theorem read_setWaveByte {s : State} (hs : Memory.wf s.wave.ram = true) (k : BitVec 4) (d : Byte) (j : Nat) :
    Memory.read (setWaveByte k d s).wave.ram j = if j = k.toNat then d else Memory.read s.wave.ram j :=
  Memory.read_write hs k.toNat j d

/-- After the writes a listed byte is the one written, and any other as before. -/
theorem read_performAll_loads (b : Fin 16 → Byte) (ks : List (Fin 16)) {s : State}
    (hs : Memory.wf s.wave.ram = true) (j : Fin 16) :
    Memory.read (performAll (loads b ks) s).wave.ram j =
      if j ∈ ks then b j else Memory.read s.wave.ram j := by
  induction ks generalizing s with
  | nil => rfl
  | cons k rest ih =>
    have hwf : Memory.wf (setWaveByte (BitVec.ofFin k) (b k) s).wave.ram = true := Memory.wf_write hs k.isLt _
    calc Memory.read (performAll (loads b (k :: rest)) s).wave.ram j
        = if j ∈ rest then b j else Memory.read (setWaveByte (BitVec.ofFin k) (b k) s).wave.ram j :=
          ih (s := (setWaveByte (BitVec.ofFin k) (b k) s).respond 0) hwf
      _ = if j ∈ k :: rest then b j else Memory.read s.wave.ram j := by
          rw [read_setWaveByte hs]
          by_cases hjk : j = k
          · simp [hjk]
          · simp [hjk, Fin.val_inj]

theorem wf_used_wave {s : State} (hs : Memory.wf s.wave.ram = true) : Memory.wf (used s).wave.ram = true := by
  cases hp : s.pending with
  | false => rwa [used, use_of_not_pending _ hp]
  | true =>
    rw [used, use_of_pending _ hp]
    exact defaultParametersAreLegal.ram

/-! ### `NOTE`: a frequency write and a trigger -/

theorem frame_trans {l m : List Item} {s t u : State} (h : Frame l s t) (k : Frame m t u) : Frame (l ++ m) s u := by
  intro x hx
  rw [List.mem_append, not_or] at hx
  exact (k x hx.2).trans (h x hx.1)

theorem frame_effect_of_written {i : Instr} {y : Item} (hi : written i = some y) (s : State) :
    Frame [y] s (effect i s) := fun _ hx => item_effect_of_written hi (List.ne_of_not_mem_cons hx) s

/-- What a trigger changes beside the flag and the timer of its channel (41_generators.md R153). -/
def restarted : Channel → List Item
  | .pulse1 => [.dpos1, .evol1, .ecnt1, .shadow, .scnt]
  | .pulse2 => [.dpos2, .evol2, .ecnt2]
  | .wave => [.widx]
  | .noise => [.lfsr, .evol4, .ecnt4]

theorem frame_trigger (p : Config.Params) (ch : Channel) (s : State) :
    Frame (.chen ch :: .gcnt ch :: .drift ch :: restarted ch) s (trigger p ch s) := by
  intro x hx
  cases x
  case chen d =>
    have hd : d ≠ ch := fun e => hx (by simp [e])
    exact congrArg Value.flag ((congrArg (Quad.get · d) (chen_trigger p ch s)).trans (Quad.get_set_other _ _ hd))
  case gcnt d =>
    have hd : d ≠ ch := fun e => hx (by simp [e])
    exact congrArg (Value.num ·.gcnt) ((timer_trigger p ch d s).trans (if_neg hd))
  case drift d =>
    have hd : d ≠ ch := fun e => hx (by simp [e])
    exact congrArg (Value.frac ·.drift) ((timer_trigger p ch d s).trans (if_neg hd))
  all_goals cases ch <;> first | rfl | exact absurd (by decide) hx

/-- A note changes what its write and its trigger change. -/
theorem frame_note {i : Instr} {y : Item} (hi : written i = some y) (ch : Channel) (s : State) :
    Frame (y :: .chen ch :: .gcnt ch :: .drift ch :: restarted ch) s (performAll [i, .trig ch] s) :=
  frame_respond 0 (frame_trans (frame_respond 0 (frame_effect_of_written hi s)) (frame_trigger Config.params ch _))

theorem envVol_toNat (r : BitVec 8) : (envVol r).toNat = r.toNat / 16 := by
  have hr := r.isLt
  rw [envVol, BitVec.extractLsb'_toNat, Nat.shiftRight_eq_div_pow]
  omega

/-! ### `MODTICK`: the four ticks of a frame -/

theorem sweepCalculate_respond (p : Config.Params) (r : Word) (s : State) :
    sweepCalculate p (s.respond r) = (sweepCalculate p s).respond r := by
  simp only [sweepCalculate, apply_ite (State.respond r)]
  rfl

theorem sweepTick_respond (p : Config.Params) (r : Word) (s : State) :
    sweepTick p (s.respond r) = (sweepTick p s).respond r := by
  simp only [sweepTick, apply_ite (State.respond r), ← sweepCalculate_respond]
  rfl

theorem performAll_modtick (s : State) : performAll (expand .modtick) s =
    ((((modulatorTicks Config.params s).respond 0).respond 0).respond 0).respond 0 := by
  rw [modulatorTicks, ← sweepTick_respond, ← sweepTick_respond, ← sweepTick_respond]
  rfl

/-- Settles O60: each expansion completes with the effects of its commands on the used state, and these are the writes,
the restart and the ticks. -/
theorem pseudoInstructions : Obligations.PseudoInstructions := by
  refine ⟨fun b s hs => ?_, fun f s => ?_, fun f s => ?_, fun f s => ?_, fun s => ?_⟩
  · obtain ⟨t, ht, hr, hport, rfl⟩ := execAll_expand (.ldwave b) s
    refine ⟨_, ht, by simpa [expand] using hr, hport, fun i => ?_, fun x hx => ?_⟩
    · rw [expand_ldwave]
      exact Value.num_toNat_congr
        ((read_performAll_loads _ _ (wf_used_wave hs) i).trans (if_pos (List.mem_finRange i)))
    · apply item_performAll_of_written
      intro i hi
      obtain ⟨k, rfl⟩ := (List.mem_ofFn' _ _).mp hi
      exact ⟨_, rfl, hx _⟩
  · obtain ⟨t, ht, hr, hport, rfl⟩ := execAll_expand (.note .pulse1 f) s
    exact ⟨_, ht, hr, hport, rfl, rfl, rfl, rfl, rfl, congrArg Value.num (envVol_toNat _), rfl, rfl, rfl,
      frame_note rfl .pulse1 _⟩
  · obtain ⟨t, ht, hr, hport, rfl⟩ := execAll_expand (.note .pulse2 f) s
    exact ⟨_, ht, hr, hport, rfl, rfl, rfl, rfl, rfl, congrArg Value.num (envVol_toNat _), rfl,
      frame_note rfl .pulse2 _⟩
  · obtain ⟨t, ht, hr, hport, rfl⟩ := execAll_expand (.note .wave f) s
    exact ⟨_, ht, hr, hport, rfl, rfl, rfl, rfl, rfl, frame_note rfl .wave _⟩
  · obtain ⟨t, ht, hr, hport, rfl⟩ := execAll_expand .modtick s
    refine ⟨_, ht, hr, hport, ?_⟩
    rw [performAll_modtick]
    exact frame_respond 0 (frame_respond 0 (frame_respond 0 (frame_respond 0 (frame_refl _ _))))

end Sys2Proof.Machine
end

section
/-! PROOF. Register access: what every `WR`, `RD` and `RDPCM` decodes to, answers and leaves unchanged
(40_register_access.md R100 to R130). First the lemmas of each statement, then the statement. -/

namespace Sys2Proof.Machine

/-! ### The data of a write (40_register_access.md R100) -/

/-- The data of a write point of `n` bits is legal exactly when it fits `n` bits (20_memory.md R61). -/
theorem decodeWr_of_width {p : Config.Params} {a : BitVec 8} {n : Nat} {make : BitVec 16 → Instr}
    (hr : writePoint p a = some ⟨BitVec.ofNat 16 (2 ^ n - 1), make⟩) (d : BitVec 16) :
    decodeWr p a d = if d.toNat < 2 ^ n then .instr (make d) else .bad .illegalOperand := by
  simp only [decodeWr, hr, and_not_lowMask]

/-- A `WR` uses the block and answers 0. -/
theorem performs_of_written {i : Instr} {x : Item} (hi : written i = some x) : performs i = true := by
  cases i <;> cases hi
  all_goals rfl

/-- A `WR` completes with response 0, and the item it names is all that its effect changes in the used state. -/
theorem exec_of_written {i : Instr} {x : Item} (hi : written i = some x) (s : State) :
    ∃ t, exec i s = .next t ∧ Answered s t 0 ∧ item t x = item (effect i (used s)) x ∧ Frame [x] (used s) t := by
  have hperforms := performs_of_written hi
  have hanswered := answered_effect i s 0
  rw [entered_of_isUse (isUse_of_performs hperforms)] at hanswered
  exact ⟨_, exec_of_performs hperforms s, hanswered, item_respond 0 _ x,
    frame_respond 0 (frame_effect_of_written hi _)⟩

/-- A register of `n` bits in the address map, which `mk` writes and `x` names, has its write command. -/
theorem writeCommand_of_writePoint {n : Nat} (hn : n ≤ 16) {a : BitVec 8} {mk : BitVec n → Instr} {x : Item}
    (hr : writePoint Config.params a = some ⟨BitVec.ofNat 16 (2 ^ n - 1), fun d => mk (d.extractLsb' 0 n)⟩)
    (hw : ∀ d, written (mk d) = some x) (hx : ∀ d s, item (effect (mk d) s) x = .num d.toNat) :
    WriteCommand a mk x := by
  refine ⟨fun d hd => ?_, fun d => ?_, fun d s => ?_⟩
  · rw [decode_wr, decodeWr_of_width hr, if_neg (Nat.not_lt.mpr hd)]
  · rw [decode_wr, decodeWr_register hn hr]
  · obtain ⟨t, ht, hanswered, hitem, hframe⟩ := exec_of_written (hw d) s
    exact ⟨t, ht, hanswered, hitem.trans (hx d _), hframe⟩

/-! ### The writes of one register (40_register_access.md R101 to R119) -/

/-- Settles O23: three write points of 11 bits, and the periods as the generators compute them. -/
theorem writesOfFrequencies : Obligations.WritesOfFrequencies := by
  refine ⟨?_, ?_, ?_, fun _ => rfl, fun _ => rfl⟩
  all_goals exact writeCommand_of_writePoint (by decide) rfl (fun _ => rfl) fun _ _ => rfl

/-- Settles O24: three write points of 2 bits. -/
theorem writesOfTimbres : Obligations.WritesOfTimbres := by
  refine ⟨?_, ?_, ?_⟩
  all_goals exact writeCommand_of_writePoint (by decide) rfl (fun _ => rfl) fun _ _ => rfl

/-- Settles O25: three write points of 8 bits. -/
theorem writesOfEnvelopes : Obligations.WritesOfEnvelopes := by
  refine ⟨?_, ?_, ?_⟩
  all_goals exact writeCommand_of_writePoint (by decide) rfl (fun _ => rfl) fun _ _ => rfl

theorem noiseScf_toNat (r : BitVec 8) : (noiseScf r).toNat = r.toNat / 16 := envVol_toNat r

theorem noiseDrf_toNat (r : BitVec 8) : (noiseDrf r).toNat = r.toNat % 8 := BitVec.extractLsb'_toNat _ _ _

/-- The default `drfTable` (00_scope.md R9, log entry 4). -/
theorem drfTable_eq_getD : ∀ i : Fin 8,
    Config.params.drfTable[i] = [8, 16, 32, 48, 64, 80, 96, 112].getD i.val 0 := by decide

theorem noisePeriod_eq_formula (g : Noise) : g.period Config.params = noisePeriodFormula g.nctrl.toNat := by
  have htable := drfTable_eq_getD (noiseDrf g.nctrl).toFin
  rw [noisePeriodFormula, ← noiseDrf_toNat, ← noiseScf_toNat, Noise.period, Nat.shiftLeft_eq]
  exact congrArg (· * _) htable

/-- Settles O26: write points of 7 and 8 bits, and the noise period by the fields of `NCTRL`. -/
theorem writesOfSweepAndNoiseControl : Obligations.WritesOfSweepAndNoiseControl := by
  refine ⟨?_, ?_, noisePeriod_eq_formula⟩
  all_goals exact writeCommand_of_writePoint (by decide) rfl (fun _ => rfl) fun _ _ => rfl

/-- Settles O27: a write point of 2 bits per channel. -/
theorem writesOfPannings : Obligations.WritesOfPannings := by
  refine ⟨?_, ?_, ?_, ?_⟩
  all_goals exact writeCommand_of_writePoint (by decide) rfl (fun _ => rfl) fun _ _ => rfl

/-- Settles O28: a write point of 1 bit per channel. -/
theorem writesOfMixerEnables : Obligations.WritesOfMixerEnables := by
  refine ⟨?_, ?_, ?_, ?_⟩
  all_goals exact writeCommand_of_writePoint (by decide) rfl (fun _ => rfl) fun _ _ => rfl

/-! ### The master volume (40_register_access.md R120) -/

/-- The two reserved bits of a byte are those that `MVOL`'s mask leaves out. -/
theorem byte_and_not_mvolMask (b : BitVec 8) : b.setWidth 16 &&& ~~~0x0077#16 = 0 ↔
    (b.setWidth 16).getLsbD 7 = false ∧ (b.setWidth 16).getLsbD 3 = false := by
  revert b
  decide

/-- `MVOL`'s mask: data of one byte with bits 7 and 3 clear. -/
theorem and_not_mvolMask (d : BitVec 16) :
    d &&& ~~~0x0077#16 = 0 ↔ ¬(255 < d.toNat ∨ d.getLsbD 7 = true ∨ d.getLsbD 3 = true) := by
  by_cases hd : d.toNat < 2 ^ 8
  · have hbyte := byte_and_not_mvolMask (d.extractLsb' 0 8)
    rw [setWidth_extractLsb_of_lt d (by decide) hd] at hbyte
    rw [hbyte, not_or, not_or, Bool.not_eq_true, Bool.not_eq_true]
    exact (and_iff_right (by omega)).symm
  · refine iff_of_false (fun h => hd ((and_not_lowMask d).mp ?_)) (not_not.mpr (.inl (by omega)))
    calc d &&& ~~~0x00FF#16 = d &&& ~~~0x0077#16 &&& ~~~0x00FF#16 := by rw [BitVec.and_assoc]; rfl
      _ = 0 := by rw [h]; exact BitVec.zero_and

theorem decodeWr_mvolData (p : Config.Params) (d : BitVec 16) : decodeWr p 0x40#8 d =
    if 255 < d.toNat ∨ d.getLsbD 7 = true ∨ d.getLsbD 3 = true then .bad .illegalOperand
    else .instr (.wrMvol (BitVec.ofNat 3 (d.toNat / 16)) (BitVec.ofNat 3 d.toNat)) := by
  have hleft : d.extractLsb' 4 3 = BitVec.ofNat 3 (d.toNat / 16) :=
    congrArg (BitVec.ofNat 3) (Nat.shiftRight_eq_div_pow _ 4)
  have hright : d.extractLsb' 0 3 = BitVec.ofNat 3 d.toNat := rfl
  rw [← ite_not, ← hleft, ← hright]
  exact if_congr (and_not_mvolMask d) rfl rfl

theorem mvolByte_toNat (l r : BitVec 3) : (mvolByte l r).toNat = l.toNat * 16 + r.toNat := by
  revert l r
  decide

/-- Settles O29: the mask decides, and the byte of the two levels is written. -/
theorem writeOfMasterVolume : Obligations.WriteOfMasterVolume := by
  refine ⟨fun d => (decode_wr _ d).trans (decodeWr_mvolData _ d), fun l r s => ?_⟩
  obtain ⟨t, ht, hanswered, hitem, hframe⟩ := exec_of_written (i := .wrMvol l r) rfl s
  exact ⟨t, ht, hanswered, hitem.trans (congrArg Value.num (mvolByte_toNat l r)), hframe⟩

/-! ### The wave RAM (40_register_access.md R121) -/

/-- The address of byte `k` as a sum and as the fields of `waveAddr_fields`. -/
theorem waveAddr_eq (k : BitVec 4) : BitVec.ofNat 8 (0x80 + k.toNat) = 0x80#8 ||| k.setWidth 8 := by
  revert k
  decide

theorem decodeWr_waveData (p : Config.Params) (k : BitVec 4) (d : BitVec 16) :
    decodeWr p (BitVec.ofNat 8 (0x80 + k.toNat)) d =
      if 255 < d.toNat then .bad .illegalOperand else .instr (.wrWave k (BitVec.ofNat 8 d.toNat)) := by
  obtain ⟨hhigh, hlow⟩ := waveAddr_fields k
  rw [waveAddr_eq, decodeWr_of_width (n := 8) (writePoint_of_high p hhigh), hlow, ← ite_not]
  exact if_congr (by omega) rfl rfl

/-- Settles O30: the address gives the index, and a write of a canonical wave RAM reads back and keeps it canonical. -/
theorem writeOfWaveRam : Obligations.WriteOfWaveRam := by
  refine fun k => ⟨fun d => (decode_wr _ d).trans (decodeWr_waveData _ k d), fun d s hs => ?_⟩
  have hused := wf_used_wave hs
  obtain ⟨t, ht, hanswered, hitem, hframe⟩ := exec_of_written (i := .wrWave k d) rfl s
  have hbyte := Value.num_toNat_congr ((read_setWaveByte hused k d k.toNat).trans (if_pos rfl))
  refine ⟨t, ht, hanswered, hitem.trans hbyte, hframe, ?_⟩
  cases ht
  exact Memory.wf_write hused k.isLt d

/-! ### The reads (40_register_access.md R122) -/

/-- An `RD` that observes a field of `n` bits answers its value in the used state. -/
theorem readCommand_of_observe {n : Nat} {a : BitVec 8} {i : Instr} {field : State → BitVec n} {value : State → Nat}
    (hd : decodeRd a 0 = .instr i) (he : ∀ s, exec i s = observe Config.params (fun u => zext (field u)) s)
    (hv : ∀ s, (field (used s)).toNat = value (used s)) : ReadCommand a i value := by
  refine ⟨fun r hr => ?_, (decode_rd a 0).trans hd, fun s => ?_⟩
  · rw [decode_rd, decodeRd_eq_illegalOperand_iff]
    exact hr
  · rw [he, ← hv, BitVec.ofNat_toNat]
    exact observe_spec (fun u => zext (field u)) s

theorem readCommand_of_register {n : Nat} {a : BitVec 8} {i : Instr} {field : State → BitVec n}
    (hd : decodeRd a 0 = .instr i) (he : ∀ s, exec i s = observe Config.params (fun u => zext (field u)) s) :
    ReadCommand a i fun u => (field u).toNat :=
  readCommand_of_observe hd he fun _ => rfl

/-- Settles O31: each read observes its register. -/
theorem readsOfProgrammableRegisters : Obligations.ReadsOfProgrammableRegisters := by
  refine ⟨?_, ?_, ?_, ?_, ?_, ?_, ?_, ?_, ?_, ?_, ?_, ?_, ?_, ?_, ?_, ?_, ?_, ?_, ?_, ?_⟩
  all_goals exact readCommand_of_register rfl fun _ => rfl

theorem flagBits_toNat : ∀ b0 b1 b2 b3 : Bool,
    (flagBit b0 0 ||| flagBit b1 1 ||| flagBit b2 2 ||| flagBit b3 3 ||| flagBit false 7).toNat =
      b0.toNat + 2 * b1.toNat + 4 * b2.toNat + 8 * b3.toNat := by decide

/-- A state that owes no resize-and-reset shows bit 7 as 0 (R128). -/
theorem statusByte_toNat {u : State} (hu : u.pending = false) : (statusByte u).toNat =
    u.chen.pulse1.toNat + 2 * u.chen.pulse2.toNat + 4 * u.chen.wave.toNat + 8 * u.chen.noise.toNat := by
  rw [statusByte, hu, flagBits_toNat]

/-- Settles O32: each read observes its value; the used state has nothing pending. -/
theorem readsOfInternalValues : Obligations.ReadsOfInternalValues := by
  refine ⟨?_, ?_, ?_, ?_, ?_, readCommand_of_observe rfl (fun _ => rfl) fun s => statusByte_toNat (use_pending _ s)⟩
  all_goals exact readCommand_of_register rfl fun _ => rfl

/-- Settles O34: the address gives the index, and the read observes the byte. -/
theorem readsOfWaveRam : Obligations.ReadsOfWaveRam := by
  intro k
  rw [waveAddr_eq]
  exact readCommand_of_register (decodeRd_wave k) fun _ => rfl

/-! ### The outputs (40_register_access.md R125, 41_generators.md R148 to R151) -/

theorem pulse_bit_iff (g : Pulse) :
    g.bit Config.params = true ↔ 0x7EE18180 / 2 ^ (g.duty.toNat * 8 + g.dpos.toNat) % 2 = 1 := by
  show Nat.testBit 0x7EE18180 (g.duty.toNat <<< 3 + g.dpos.toNat) = true ↔ _
  rw [Nat.testBit_eq_decide_div_mod_eq, decide_eq_true_iff, Nat.shiftLeft_eq]

/-- A volume behind the flag of a channel and a condition on its generator (R151). -/
theorem gated_toNat (b : Bool) {c d : Prop} [Decidable c] [Decidable d] (h : c ↔ d) (v : BitVec 4) :
    (if b then if c then v else 0 else 0).toNat = if b = true ∧ d then v.toNat else 0 := by
  rw [← ite_and, apply_ite BitVec.toNat]
  exact if_congr (and_congr_right' h) rfl rfl

theorem highNibble_toNat (b : Byte) : (highNibble b).toNat = b.toNat / 16 := envVol_toNat b

theorem lowNibble_toNat (b : Byte) : (lowNibble b).toNat = b.toNat % 16 := BitVec.extractLsb'_toNat _ _ _

theorem wave_nibble_toNat (g : Wave) : g.nibble.toNat =
    if g.widx.toNat % 2 = 0 then (Memory.read g.ram (g.widx.toNat / 2)).toNat / 16
    else (Memory.read g.ram (g.widx.toNat / 2)).toNat % 16 := by
  rw [Wave.nibble, apply_ite BitVec.toNat, highNibble_toNat, lowNibble_toNat]

/-- Mute, full, half, quarter (R149). -/
theorem wave_out_toNat (g : Wave) : g.out.toNat =
    if g.wvol = 0 then 0 else if g.wvol = 1 then g.nibble.toNat else if g.wvol = 2 then g.nibble.toNat / 2
    else g.nibble.toNat / 4 := by
  unfold Wave.out
  split
  case h_1 h | h_2 h => simp [h]
  case h_3 h | h_4 h => simp [h, Nat.shiftRight_eq_div_pow]

/-- The noise channel sounds while bit 0 of the LFSR is 0 (R150). -/
theorem noise_bit_iff (l : BitVec 15) : ¬l.getLsbD 0 = true ↔ l.toNat % 2 = 0 := by
  show ¬Nat.testBit l.toNat 0 = true ↔ _
  rw [Nat.testBit_zero, decide_eq_true_iff, Nat.mod_two_not_eq_one]

theorem noise_out_eq (g : Noise) : g.out = if ¬g.lfsr.getLsbD 0 = true then g.env.evol else 0 := (ite_not ..).symm

/-- The gated output of each channel is the formula's. -/
theorem chOut_toNat (ch : Channel) (u : State) : (chOut Config.params ch u).toNat = outFormula u ch := by
  cases ch with
  | pulse1 => exact gated_toNat _ (pulse_bit_iff u.pulse1) _
  | pulse2 => exact gated_toNat _ (pulse_bit_iff u.pulse2) _
  | wave =>
    show (if u.chen.wave then u.wave.out else 0).toNat = _
    rw [apply_ite BitVec.toNat, wave_out_toNat, wave_nibble_toNat]
    rfl
  | noise =>
    show (if u.chen.noise then u.noise.out else 0).toNat = _
    rw [noise_out_eq]
    exact gated_toNat _ (noise_bit_iff u.noise.lfsr) _

/-- Settles O33: each read observes the gated output of its channel. -/
theorem readsOfOutputs : Obligations.ReadsOfOutputs := by
  refine ⟨?_, ?_, ?_, ?_⟩
  all_goals exact readCommand_of_observe rfl (fun _ => rfl) fun s => chOut_toNat _ (used s)

/-! ### The PCM frame (40_register_access.md R130) -/

theorem exec_rdpcm_of_getElem {k : BitVec 24} {s : State} {f : Sample} (hf : s.pcm[k.toNat / 2]? = some f) :
    exec (.rdpcm k) s = .next (s.respond ((if k.toNat % 2 = 0 then f.left else f.right).setWidth 32)) := by
  simp only [exec, execRdpcm, pcmRead, hf, Option.map_some, zext]

/-- Settles O35: the sample of an index exists exactly below `2 * pcmLen`. -/
theorem readsOfThePcmFrame : Obligations.ReadsOfThePcmFrame := by
  intro k s
  constructor
  · intro hk
    have hlt : k.toNat / 2 < s.pcm.length := Nat.div_lt_of_lt_mul hk
    have hf := List.getElem?_eq_getElem hlt
    exact ⟨_, _, exec_rdpcm_of_getElem hf, hf, answered_respond _ rfl rfl, frame_respond _ (frame_refl _ _)⟩
  · intro hk
    rw [(exec_follows _ s).fault_iff, specFault_rdpcm, if_pos hk]

end Sys2Proof.Machine
end

section
/-! PROOF. The generators: `TRIG`, `GSTEP`, and what stepping does to the counters, the positions and the LFSR
(41_generators.md R140 to R159). First the lemmas of each statement, then the statement. -/

namespace Sys2Proof.Machine

/-- A command that uses the block and answers 0 completes with its effect on the used state. -/
theorem exec_of_performs_spec {i : Instr} (hi : performs i = true) (s : State) :
    ∃ t, exec i s = .next t ∧ Answered s t 0 ∧ t = (effect i (used s)).respond 0 := by
  have hanswered := answered_effect i s 0
  rw [entered_of_isUse (isUse_of_performs hi)] at hanswered
  exact ⟨_, exec_of_performs hi s, hanswered, rfl⟩

/-! ### `TRIG` (41_generators.md R153) -/

theorem exec_trig_spec (ch : Channel) (s : State) :
    ∃ t, exec (.trig ch) s = .next t ∧ Answered s t 0 ∧ t = (trigger Config.params ch (used s)).respond 0 :=
  exec_of_performs_spec rfl s

/-- A trigger loads the volume from the high nibble of `ENV`. -/
theorem evol_trigger_toNat (e : Envelope) : e.trigger.evol.toNat = e.reg.toNat / 16 := envVol_toNat e.reg

/-- Settles O36: the operands are those of format C (O10); each item is what the trigger sets, and the frame is
`frame_trigger`. -/
theorem triggerRestartsAChannel : Obligations.TriggerRestartsAChannel := by
  refine ⟨fun c a => (formatFieldsAreChecked.1 c a).mpr, fun s => ⟨?_, ?_, ?_, ?_⟩⟩
  · obtain ⟨t, ht, hanswered, rfl⟩ := exec_trig_spec .pulse1 s
    exact ⟨_, ht, hanswered, rfl, rfl, rfl, rfl, congrArg Value.num (evol_trigger_toNat _), rfl, rfl, rfl,
      frame_respond 0 (frame_trigger _ .pulse1 _)⟩
  · obtain ⟨t, ht, hanswered, rfl⟩ := exec_trig_spec .pulse2 s
    exact ⟨_, ht, hanswered, rfl, rfl, rfl, rfl, congrArg Value.num (evol_trigger_toNat _), rfl,
      frame_respond 0 (frame_trigger _ .pulse2 _)⟩
  · obtain ⟨t, ht, hanswered, rfl⟩ := exec_trig_spec .wave s
    exact ⟨_, ht, hanswered, rfl, rfl, rfl, rfl, frame_respond 0 (frame_trigger _ .wave _)⟩
  · obtain ⟨t, ht, hanswered, rfl⟩ := exec_trig_spec .noise s
    exact ⟨_, ht, hanswered, rfl, rfl, rfl, rfl, congrArg Value.num (evol_trigger_toNat _), rfl,
      frame_respond 0 (frame_trigger _ .noise _)⟩

/-! ### `GSTEP` of a pulse or the wave channel (41_generators.md R143 to R145, R152) -/

theorem exec_gstep_spec (ch : Channel) (a : BitVec 16) (s : State) :
    ∃ t, exec (.gstep ch a) s = .next t ∧ Answered s t 0 ∧
      t = (advance Config.params ch (gstepCycles a) (used s)).respond 0 :=
  exec_of_performs_spec rfl s

/-- What an advance moves beside the timer of its channel (R144 to R146). -/
def position : Channel → Item
  | .pulse1 => .dpos1
  | .pulse2 => .dpos2
  | .wave => .widx
  | .noise => .lfsr

/-- The timers of the other channels stand still (43_mixer_synth.md R204). -/
theorem timer_advance (p : Config.Params) (ch d : Channel) (c : Rat) (s : State) :
    (advance p ch c s).timer d = if d = ch then (advance p ch c s).timer ch else s.timer d := by
  cases ch <;> cases d <;> rfl

theorem frame_advance (p : Config.Params) (ch : Channel) (c : Rat) (s : State) :
    Frame [.drift ch, .gcnt ch, position ch] s (advance p ch c s) := by
  intro x hx
  cases x
  case gcnt d =>
    have hd : d ≠ ch := fun e => hx (by simp [e])
    exact congrArg (Value.num ·.gcnt) ((timer_advance p ch d c s).trans (if_neg hd))
  case drift d =>
    have hd : d ≠ ch := fun e => hx (by simp [e])
    exact congrArg (Value.frac ·.drift) ((timer_advance p ch d c s).trans (if_neg hd))
  all_goals cases ch <;> first | rfl | exact absurd (by decide) hx

theorem frame_gstep (ch : Channel) (a : BitVec 16) (s : State) :
    Frame [.drift ch, .gcnt ch, position ch] s ((advance Config.params ch (gstepCycles a) s).respond 0) :=
  frame_respond 0 (frame_advance _ ch _ s)

/-- The position of a pulse is a remainder by 8, which its three bits hold. -/
theorem Pulse.wholeStep_dpos_toNat (n : Nat) (g : Pulse) :
    (g.wholeStep n).dpos.toNat = (g.dpos.toNat + (g.timer.gcnt + n) / g.period) % 8 :=
  (BitVec.toNat_ofNat _ _).trans (Nat.mod_mod _ _)

/-- The index of the wave is a remainder by 32, which its five bits hold. -/
theorem Wave.wholeStep_widx_toNat (n : Nat) (g : Wave) :
    (g.wholeStep n).widx.toNat = (g.widx.toNat + (g.timer.gcnt + n) / g.period) % 32 :=
  (BitVec.toNat_ofNat _ _).trans (Nat.mod_mod _ _)

/-- Settles O37: the whole cycles of the amount with the carry are a whole-cycle step, the rest is the carry. -/
theorem gstepOfPulseAndWave : Obligations.GstepOfPulseAndWave := by
  refine fun a s => ⟨?_, ?_, ?_⟩
  · obtain ⟨t, ht, hanswered, rfl⟩ := exec_gstep_spec .pulse1 a s
    exact ⟨_, ht, hanswered, rfl, rfl, congrArg Value.num (Pulse.wholeStep_dpos_toNat _ _), frame_gstep .pulse1 a _⟩
  · obtain ⟨t, ht, hanswered, rfl⟩ := exec_gstep_spec .pulse2 a s
    exact ⟨_, ht, hanswered, rfl, rfl, congrArg Value.num (Pulse.wholeStep_dpos_toNat _ _), frame_gstep .pulse2 a _⟩
  · obtain ⟨t, ht, hanswered, rfl⟩ := exec_gstep_spec .wave a s
    exact ⟨_, ht, hanswered, rfl, rfl, congrArg Value.num (Wave.wholeStep_widx_toNat _ _), frame_gstep .wave a _⟩

/-! ### One shift of the LFSR (41_generators.md R146) -/

/-- The bit that a shift puts in: the exclusive or of the two lowest bits. -/
def feedback (l : BitVec 15) : Bool := l.getLsbD 0 ^^ l.getLsbD 1

/-- A shift moves every bit down by one and puts the feedback in at bit 14, in 7-bit mode at bit 6 too. -/
theorem getLsbD_lfsrShift (short : Bool) (l : BitVec 15) {i : Nat} (hi : i < 15) :
    (lfsrShift short l).getLsbD i =
      if i = 14 ∨ short = true ∧ i = 6 then feedback l else l.getLsbD (i + 1) := by
  cases short <;> interval_cases i <;> simp [lfsrShift, feedback]

/-- In 15-bit mode the register after a shift is the feedback over the bits 14 to 1 of the one before. -/
theorem lfsrShift_long_eq_append (l : BitVec 15) :
    lfsrShift false l = BitVec.ofBool (feedback l) ++ l.extractLsb' 1 14 := by
  apply BitVec.eq_of_getLsbD_eq
  intro i hi
  rw [getLsbD_lfsrShift false l hi, BitVec.getLsbD_append]
  interval_cases i <;> simp

/-- In 7-bit mode the feedback stands in the place of bit 7 of the one before too. -/
theorem lfsrShift_short_eq_append (l : BitVec 15) :
    lfsrShift true l =
      (BitVec.ofBool (feedback l) ++ l.extractLsb' 8 7 ++ BitVec.ofBool (feedback l) ++ l.extractLsb' 1 6 :
        BitVec (1 + 7 + 1 + 6)) := by
  apply BitVec.eq_of_getLsbD_eq
  intro i hi
  rw [getLsbD_lfsrShift true l hi]
  simp only [BitVec.getLsbD_append]
  interval_cases i <;> simp

theorem feedback_toNat (l : BitVec 15) : (feedback l).toNat = (l.toNat % 2 + l.toNat / 2 % 2) % 2 := by
  show (Nat.testBit l.toNat 0 ^^ Nat.testBit l.toNat 1).toNat = _
  rw [Nat.testBit_eq_decide_div_mod_eq, Nat.testBit_eq_decide_div_mod_eq, Nat.pow_zero, Nat.div_one, Nat.pow_one]
  rcases Nat.mod_two_eq_zero_or_one l.toNat with h0 | h0 <;>
    rcases Nat.mod_two_eq_zero_or_one (l.toNat / 2) with h1 | h1 <;> simp [h0, h1]

theorem append_toNat {m n : Nat} (x : BitVec m) (y : BitVec n) : (x ++ y).toNat = x.toNat * 2 ^ n + y.toNat := by
  rw [BitVec.toNat_append, ← Nat.shiftLeft_add_eq_or_of_lt y.isLt, Nat.shiftLeft_eq]

theorem lfsrShift_long_toNat (l : BitVec 15) :
    (lfsrShift false l).toNat = l.toNat / 2 + (feedback l).toNat * 2 ^ 14 := by
  have hl := l.isLt
  rw [lfsrShift_long_eq_append]
  show (BitVec.ofBool (feedback l) ++ l.extractLsb' 1 14 : BitVec (1 + 14)).toNat = _
  simp only [append_toNat, BitVec.toNat_ofBool, BitVec.extractLsb'_toNat, Nat.shiftRight_eq_div_pow]
  omega

theorem lfsrShift_short_toNat (l : BitVec 15) :
    (lfsrShift true l).toNat = l.toNat / 2 + (feedback l).toNat * 2 ^ 14 - l.toNat / 2 / 64 % 2 * 64 +
      (feedback l).toNat * 64 := by
  have hl := l.isLt
  rw [lfsrShift_short_eq_append]
  show (BitVec.ofBool (feedback l) ++ l.extractLsb' 8 7 ++ BitVec.ofBool (feedback l) ++ l.extractLsb' 1 6 :
    BitVec (1 + 7 + 1 + 6)).toNat = _
  simp only [append_toNat, BitVec.toNat_ofBool, BitVec.extractLsb'_toNat, Nat.shiftRight_eq_div_pow]
  omega

theorem noiseShort_eq_decide (r : BitVec 8) : noiseShort r = decide (r.toNat / 8 % 2 = 1) :=
  Nat.testBit_eq_decide_div_mod_eq

/-! ### `GSTEP` of the noise channel (41_generators.md R142, R152) -/

theorem Noise.wholeStep_lfsr (n : Nat) (g : Noise) :
    (g.wholeStep Config.params n).lfsr =
      (lfsrShift (decide (g.nctrl.toNat / 8 % 2 = 1)))^[(g.timer.gcnt + n) / noisePeriodFormula g.nctrl.toNat]
        g.lfsr := by
  rw [← noiseShort_eq_decide, ← noisePeriod_eq_formula]
  rfl

/-- Settles O38: as for the other channels, with one shift per threshold crossing, and the shift by its number in either
mode. -/
theorem gstepOfNoise : Obligations.GstepOfNoise := by
  refine ⟨fun a s => ?_, fun l => ?_⟩
  · obtain ⟨t, ht, hanswered, rfl⟩ := exec_gstep_spec .noise a s
    refine ⟨_, ht, hanswered, rfl, ?_, Value.num_toNat_congr (Noise.wholeStep_lfsr _ _), frame_gstep .noise a _⟩
    rw [← noisePeriod_eq_formula]
    rfl
  · rw [← feedback_toNat]
    exact ⟨lfsrShift_long_toNat l, lfsrShift_short_toNat l⟩

/-! ### Advances add up (41_generators.md R143, R147) -/

/-- Two advances of one channel are one advance by the sum. -/
theorem advance_advance {p : Config.Params} (hp : LegalParams p) {ch : Channel} {s : State}
    (hs : IsCarry (s.timer ch).drift) {c d : Rat} (hc : 0 ≤ c) (hd : 0 ≤ d) :
    advance p ch d (advance p ch c s) = advance p ch (c + d) s := by
  cases ch with
  | pulse1 => exact congrArg (fun g => { s with pulse1 := g }) (Pulse.advance_advance hs hc hd)
  | pulse2 => exact congrArg (fun g => { s with pulse2 := g }) (Pulse.advance_advance hs hc hd)
  | wave => exact congrArg (fun g => { s with wave := g }) (Wave.advance_advance hs hc hd)
  | noise => exact congrArg (fun g => { s with noise := g }) (Noise.advance_advance hp.drf hs hc hd)

/-- Settles O39, by induction on the list: the first two amounts are one. -/
theorem advancesAddUp : Obligations.AdvancesAddUp := by
  intro p ch s c cs hp hs hc hcs
  induction cs generalizing c with
  | nil => simp
  | cons d ds ih =>
    obtain ⟨hd, hds⟩ := List.forall_mem_cons.mp hcs
    calc (c :: d :: ds).foldl (fun u d => advance p ch d u) s
        = ds.foldl (fun u d => advance p ch d u) (advance p ch d (advance p ch c s)) := rfl
      _ = ((c + d) :: ds).foldl (fun u d => advance p ch d u) s := by rw [advance_advance hp hs hc hd]; rfl
      _ = advance p ch (c + d + ds.sum) s := ih (c + d) (add_nonneg hc hd) hds
      _ = advance p ch (c + (d :: ds).sum) s := by rw [List.sum_cons, add_assoc]

/-! ### The pulse waveform (41_generators.md R158) -/

/-- Below the period no position passes. -/
theorem Pulse.wholeStep_of_lt {g : Pulse} {n : Nat} (h : g.timer.gcnt + n < g.period) :
    g.wholeStep n = { g with timer := { g.timer with gcnt := g.timer.gcnt + n } } := by
  have hpos : g.dpos.toNat % 8 = g.dpos.toNat := Nat.mod_eq_of_lt g.dpos.isLt
  simp only [Pulse.wholeStep, Timer.count, Timer.steps, Nat.mod_eq_of_lt h, Nat.div_eq_of_lt h, Nat.add_zero, hpos,
    BitVec.ofNat_toNat, BitVec.setWidth_eq]

/-- `k` periods move the position by `k` and leave the counter. -/
theorem Pulse.wholeStep_mul_period {g : Pulse} (h : g.timer.gcnt < g.period) (k : Nat) :
    g.wholeStep (k * g.period) = { g with dpos := g.dpos + BitVec.ofNat 3 k } := by
  have hdiv : (g.timer.gcnt + k * g.period) / g.period = k := by
    rw [Nat.add_mul_div_right _ _ g.period_pos, Nat.div_eq_of_lt h, Nat.zero_add]
  have hmod : (g.timer.gcnt + k * g.period) % g.period = g.timer.gcnt := by
    rw [Nat.add_mul_mod_self_right, Nat.mod_eq_of_lt h]
  have hpos : BitVec.ofNat 3 ((g.dpos.toNat + k) % 8) = g.dpos + BitVec.ofNat 3 k := by
    apply BitVec.eq_of_toNat_eq
    simp
  simp only [Pulse.wholeStep, Timer.count, Timer.steps, hdiv, hmod, hpos]

/-- From whatever position, the eight bits of a duty are high 1, 2, 4 or 6 times, with the default `DUTY_MASK` (log
entry 4). -/
theorem dutyBits_high_count : ∀ (duty : BitVec 2) (dpos : BitVec 3),
    ((List.range 8).filter fun k =>
      Config.params.dutyMask.getLsbD (duty.toNat <<< 3 + (dpos + BitVec.ofNat 3 k).toNat)).length =
        [1, 2, 4, 6].getD duty.toNat 0 := by decide

/-- Settles O42: eight positions are a whole turn, and a step of periods is a step of positions. -/
theorem pulseWaveformIsPeriodic : Obligations.PulseWaveformIsPeriodic := by
  intro g h
  refine ⟨?_, fun n hn => ?_, ?_⟩
  · rw [Pulse.wholeStep_mul_period h]
    exact congrArg (fun q => { g with dpos := q }) (BitVec.add_zero g.dpos)
  · rw [Pulse.wholeStep_of_lt hn]
    rfl
  · simp only [Pulse.wholeStep_mul_period h]
    exact dutyBits_high_count g.duty g.dpos

/-! ### The LFSR in a fixed mode (41_generators.md R159) -/

/-- The bits that a mode goes round: the lowest 7 or all 15. -/
def lfsrWidth (short : Bool) : Nat := if short then 7 else 15

theorem lfsrWidth_le (short : Bool) : lfsrWidth short ≤ 15 := by cases short <;> decide

theorem two_le_lfsrWidth (short : Bool) : 2 ≤ lfsrWidth short := by cases short <;> decide

theorem getLsbD_lfsrShift_top (short : Bool) (l : BitVec 15) :
    (lfsrShift short l).getLsbD (lfsrWidth short - 1) = feedback l := by
  cases short <;> exact getLsbD_lfsrShift _ l (by decide)

theorem getLsbD_lfsrShift_below {short : Bool} {i : Nat} (hi : i + 1 < lfsrWidth short) (l : BitVec 15) :
    (lfsrShift short l).getLsbD i = l.getLsbD (i + 1) := by
  have hw := lfsrWidth_le short
  rw [getLsbD_lfsrShift short l (by omega), if_neg]
  cases short <;> simp [lfsrWidth] at hi ⊢ <;> omega

/-- Some bit of those that the mode goes round is set. -/
def Alive (short : Bool) (l : BitVec 15) : Prop := ∃ i < lfsrWidth short, l.getLsbD i = true

theorem Alive.ne_zero {short : Bool} {l : BitVec 15} (h : Alive short l) : l ≠ 0 := by
  rintro rfl
  obtain ⟨i, -, hi⟩ := h
  simp at hi

/-- A set bit moves down; from bit 0 it goes into the feedback, unless bit 1 is set as well, which moves to bit 0. -/
theorem alive_lfsrShift {short : Bool} {l : BitVec 15} (h : Alive short l) : Alive short (lfsrShift short l) := by
  have hw := two_le_lfsrWidth short
  have hdown {i : Nat} (hi : i + 1 < lfsrWidth short) (hbit : l.getLsbD (i + 1) = true) :
      Alive short (lfsrShift short l) :=
    ⟨i, by omega, (getLsbD_lfsrShift_below hi l).trans hbit⟩
  obtain ⟨i, hi, hbit⟩ := h
  cases i with
  | succ i => exact hdown hi hbit
  | zero =>
    cases hone : l.getLsbD 1 with
    | true => exact hdown hw hone
    | false =>
      have hfeedback : feedback l = true := by rw [feedback, hbit, hone]; rfl
      exact ⟨_, by omega, (getLsbD_lfsrShift_top short l).trans hfeedback⟩

theorem alive_iterate {short : Bool} {l : BitVec 15} (h : Alive short l) (n : Nat) :
    Alive short ((lfsrShift short)^[n] l) :=
  Function.Iterate.rec (Alive short) h (fun _ => alive_lfsrShift) n

theorem alive_seed (short : Bool) : Alive short 0x7FFF :=
  ⟨0, by cases short <;> decide, by decide⟩

/-- After 127 shifts in 7-bit mode the register that the first shift from the seed gives is back. -/
theorem isPeriodicPt_lfsrShift_short : Function.IsPeriodicPt (lfsrShift true) 127 0x3FBF := by
  show (lfsrShift true)^[127] 0x3FBF = 0x3FBF
  decide +kernel

/-- 127 is a prime, so that a smaller period would be 1, and one shift does not keep the register. -/
theorem not_isPeriodicPt_lfsrShift_short {n : Nat} (hn : 0 < n) (hlt : n < 127) :
    ¬ Function.IsPeriodicPt (lfsrShift true) n 0x3FBF := by
  intro h
  have hprime : Nat.Prime 127 := by norm_num
  rcases (Nat.dvd_prime hprime).mp isPeriodicPt_lfsrShift_short.minimalPeriod_dvd with h1 | h127
  · rw [Function.minimalPeriod_eq_one_iff_isFixedPt] at h1
    exact absurd h1 (by unfold Function.IsFixedPt; decide)
  · have := h.minimalPeriod_le hn
    omega

theorem lfsrShift_zero (short : Bool) : lfsrShift short 0 = 0 := by cases short <;> decide

/-- Settles O43: a set bit among those that the mode goes round is never lost; the period of the 7-bit sequence is a
prime; and the shifts of the switch of mode, and from 0, are computed. -/
theorem noiseNeverSticksInAFixedMode : Obligations.NoiseNeverSticksInAFixedMode :=
  ⟨fun short n => (alive_iterate (alive_seed short) n).ne_zero,
    ⟨by decide, isPeriodicPt_lfsrShift_short, fun _ => not_isPeriodicPt_lfsrShift_short⟩,
    ⟨by decide, by decide⟩,
    fun short => Function.iterate_fixed (lfsrShift_zero short)⟩

end Sys2Proof.Machine
end

section
/-! PROOF. The modulators: the ticks of the envelopes and of the sweep, and what any number of sweep ticks does
(42_modulators.md R171 to R179, 70_reset_and_hazards.md R247). First the lemmas of each statement, then the
statement. -/

namespace Sys2Proof.Machine

/-! ### Frames -/

theorem frame_mono {l m : List Item} {s t : State} (h : Frame l s t) (hlm : l ⊆ m) : Frame m s t :=
  fun x hx => h x fun hl => hx (hlm hl)

/-- An item that holds what it held need not be listed. -/
theorem frame_of_cons {l : List Item} {x : Item} {s t : State} (h : Frame (x :: l) s t) (hx : item t x = item s x) :
    Frame l s t := by
  intro y hy
  by_cases hyx : y = x
  · rw [hyx, hx]
  · exact h y (List.not_mem_cons_of_ne_of_not_mem hyx hy)

/-! ### The three envelopes -/

/-- The channels with an Envelope unit (10_state.md R25). -/
inductive EnvelopeUnit where
  | pulse1
  | pulse2
  | noise
  deriving DecidableEq

/-- The Envelope unit of a channel. -/
def State.envelope (s : State) : EnvelopeUnit → Envelope
  | .pulse1 => s.pulse1.env
  | .pulse2 => s.pulse2.env
  | .noise => s.noise.env

/-- The channel of an Envelope unit. -/
def EnvelopeUnit.channel : EnvelopeUnit → Channel
  | .pulse1 => .pulse1
  | .pulse2 => .pulse2
  | .noise => .noise

/-- The current volume of an Envelope unit as an item. -/
def EnvelopeUnit.evol : EnvelopeUnit → Item
  | .pulse1 => .evol1
  | .pulse2 => .evol2
  | .noise => .evol4

/-- The step counter of an Envelope unit as an item. -/
def EnvelopeUnit.ecnt : EnvelopeUnit → Item
  | .pulse1 => .ecnt1
  | .pulse2 => .ecnt2
  | .noise => .ecnt4

/-- The instruction that ticks an Envelope unit (42_modulators.md R171). -/
def EnvelopeUnit.etick : EnvelopeUnit → Instr
  | .pulse1 => .etick0
  | .pulse2 => .etick1
  | .noise => .etick3

theorem item_evol (u : EnvelopeUnit) (s : State) : item s u.evol = .num (s.envelope u).evol.toNat := by
  cases u <;> rfl

theorem item_ecnt (u : EnvelopeUnit) (s : State) : item s u.ecnt = .num (s.envelope u).ecnt := by
  cases u <;> rfl

theorem envelope_effect_etick (v u : EnvelopeUnit) (s : State) : (effect v.etick s).envelope u =
    if u = v then (s.envelope u).tick Config.params else s.envelope u := by
  cases v <;> cases u <;> rfl

/-- A tick changes the volume and the step counter of its unit alone; `ENV` is kept (`Envelope.tick_reg`). -/
theorem frame_effect_etick (u : EnvelopeUnit) (s : State) : Frame [u.evol, u.ecnt] s (effect u.etick s) := by
  intro x hx
  cases u <;> cases x <;>
    first | rfl | exact absurd (by decide) hx | exact Value.num_toNat_congr (Envelope.tick_reg _ _)

theorem performs_etick (u : EnvelopeUnit) : performs u.etick = true := by
  cases u <;> rfl

/-! ### One tick of an envelope (42_modulators.md R171, R179) -/

theorem envPeriod_toNat (r : BitVec 8) : (envPeriod r).toNat = r.toNat % 8 := noiseDrf_toNat r

theorem envAmplify_iff (r : BitVec 8) : envAmplify r = true ↔ r.toNat / 8 % 2 = 1 :=
  (Bool.eq_iff_iff.mp (noiseShort_eq_decide r)).trans decide_eq_true_iff

/-- The default `ENV_PERIOD_SCALE` is 1 (log entry 4). -/
theorem Envelope.period_default (e : Envelope) : e.period Config.params = e.reg.toNat % 8 :=
  (Nat.mul_one _).trans (envPeriod_toNat e.reg)

theorem Envelope.tick_of_period_zero {e : Envelope} (h : e.reg.toNat % 8 = 0) : e.tick Config.params = e :=
  if_pos (e.period_default.trans h)

theorem Envelope.stepped_toNat_default (e : Envelope) :
    e.stepped.toNat = if e.reg.toNat / 8 % 2 = 1 then min 15 (e.evol.toNat + 1) else e.evol.toNat - 1 :=
  e.stepped_toNat.trans (if_congr (envAmplify_iff e.reg) rfl rfl)

/-- From `s` to `t` the envelope `e` of `s`, with its volume and counter as items, has made one tick: the chain of R171
by the numbers of its fields. -/
def EnvelopeTicked (e : Envelope) (evol ecnt : Item) (s t : State) : Prop :=
  if e.reg.toNat % 8 = 0 then Frame [] s t
  else if e.ecnt + 1 < e.reg.toNat % 8 then item t ecnt = .num (e.ecnt + 1) ∧ Frame [ecnt] s t
  else item t ecnt = .num 0 ∧
    item t evol = .num (if e.reg.toNat / 8 % 2 = 1 then min 15 (e.evol.toNat + 1) else e.evol.toNat - 1) ∧
    Frame [evol, ecnt] s t

theorem envelopeTicked_effect_etick (u : EnvelopeUnit) (s : State) :
    EnvelopeTicked (s.envelope u) u.evol u.ecnt s (effect u.etick s) := by
  have hframe := frame_effect_etick u s
  have hunit := envelope_effect_etick u u s
  have hevol := item_evol u (effect u.etick s)
  have hecnt := item_ecnt u (effect u.etick s)
  rw [if_pos rfl] at hunit
  rw [hunit] at hevol hecnt
  have hcases := (s.envelope u).tick_cases Config.params
  rw [Envelope.period_default] at hcases
  unfold EnvelopeTicked
  rcases hcases with ⟨h0, e⟩ | ⟨h0, hle, e⟩ | ⟨h0, hlt, e⟩ <;> rw [e] at hevol hecnt
  · rw [if_pos h0]
    have hcount := frame_of_cons hframe (hevol.trans (item_evol u s).symm)
    exact frame_of_cons hcount (hecnt.trans (item_ecnt u s).symm)
  · rw [if_neg h0, if_neg (Nat.not_lt.mpr hle), ← Envelope.stepped_toNat_default]
    exact ⟨hecnt, hevol, hframe⟩
  · rw [if_neg h0, if_pos hlt]
    exact ⟨hecnt, frame_of_cons hframe (hevol.trans (item_evol u s).symm)⟩

/-- What a response adds is no item. -/
theorem EnvelopeTicked.respond {e : Envelope} {evol ecnt : Item} {s t : State} (r : Word)
    (h : EnvelopeTicked e evol ecnt s t) : EnvelopeTicked e evol ecnt s (t.respond r) := by
  simpa only [EnvelopeTicked, Frame, item_respond] using h

theorem exec_etick_spec (u : EnvelopeUnit) (s : State) : ∃ t, exec u.etick s = .next t ∧ Answered s t 0 ∧
    EnvelopeTicked ((used s).envelope u) u.evol u.ecnt (used s) t := by
  obtain ⟨t, ht, hanswered, rfl⟩ := exec_of_performs_spec (performs_etick u) s
  exact ⟨_, ht, hanswered, (envelopeTicked_effect_etick u _).respond 0⟩

/-- Settles O44: the illegal operands are those of format C (O10), and the three ticks are one law. -/
theorem envelopeTicks : Obligations.EnvelopeTicks := by
  obtain ⟨-, -, hetick, -⟩ := formatFieldsAreChecked
  exact ⟨fun c a => (hetick c a).mpr, exec_etick_spec .pulse1, exec_etick_spec .pulse2, exec_etick_spec .noise⟩

/-! ### The volume at period 0 (42_modulators.md R173) -/

theorem envelope_trigger {ch : Channel} {u : EnvelopeUnit} (h : ch ≠ u.channel) (p : Config.Params) (s : State) :
    (trigger p ch s).envelope u = s.envelope u := by
  cases ch <;> cases u <;> first | rfl | exact absurd rfl h

theorem envelope_advance (p : Config.Params) (ch : Channel) (c : Rat) (u : EnvelopeUnit) (s : State) :
    (advance p ch c s).envelope u = s.envelope u := by
  cases ch <;> cases u <;> rfl

theorem envelope_sweepTick (p : Config.Params) (u : EnvelopeUnit) (s : State) :
    (sweepTick p s).envelope u = s.envelope u := by
  obtain ⟨_, _, _, _, _, e⟩ := sweepTick_touches p s
  rw [e]
  cases u <;> rfl

/-- A frame ticks every envelope once (43_mixer_synth.md R202). -/
theorem envelope_runFrame (u : EnvelopeUnit) (s : State) :
    (runFrame Config.params s).envelope u = (s.envelope u).tick Config.params := by
  obtain ⟨_, ⟨_, _, _, _, _, _, _, _, rfl⟩, e⟩ := runFrame_touches s
  obtain ⟨_, _, _, _, _, hm⟩ := modulatorTicks_touches Config.params s
  rw [e, hm]
  cases u <;> rfl

/-- The volume has three writers: the trigger of its channel, `RESET`, and the ticks, which do nothing at period 0. -/
theorem evol_effect_of_period_zero {i : Instr} {u : EnvelopeUnit} {s : State}
    (h0 : (s.envelope u).reg.toNat % 8 = 0) (hreset : i ≠ .reset) (htrig : i ≠ .trig u.channel) :
    ((effect i s).envelope u).evol = (s.envelope u).evol := by
  have hetick (v : EnvelopeUnit) : (effect v.etick s).envelope u = s.envelope u := by
    rw [envelope_effect_etick, Envelope.tick_of_period_zero h0, ite_self]
  cases i
  case trig ch => rw [effect_trig, envelope_trigger (fun e => htrig (congrArg Instr.trig e))]
  case gstep ch c => rw [effect_gstep, envelope_advance]
  case etick0 => exact congrArg Envelope.evol (hetick .pulse1)
  case etick1 => exact congrArg Envelope.evol (hetick .pulse2)
  case etick3 => exact congrArg Envelope.evol (hetick .noise)
  case stick => rw [effect_stick, envelope_sweepTick]
  case run => rw [effect_run, envelope_runFrame, Envelope.tick_of_period_zero h0]
  case reset => exact absurd rfl hreset
  all_goals cases u <;> rfl

/-- Settles O45, unit by unit, through the effect on the entered state. -/
theorem constantVolumeAtPeriodZero : Obligations.ConstantVolumeAtPeriodZero := by
  intro i s t h hreset
  obtain ⟨r, rfl⟩ := exec_next h
  have hunit (u : EnvelopeUnit) (h0 : ((entered i s).envelope u).reg.toNat % 8 = 0) (htrig : i ≠ .trig u.channel) :
      item ((effect i (entered i s)).respond r) u.evol = item (entered i s) u.evol := by
    rw [item_respond, item_evol, item_evol, evol_effect_of_period_zero h0 hreset htrig]
  exact ⟨hunit .pulse1, hunit .pulse2, hunit .noise⟩

/-! ### One tick of the sweep (42_modulators.md R174 to R179) -/

theorem sweepTime_toNat (r : BitVec 7) : (sweepTime r).toNat = r.toNat / 16 := by
  have hr := r.isLt
  rw [sweepTime, BitVec.extractLsb'_toNat, Nat.shiftRight_eq_div_pow]
  omega

theorem sweepShift_toNat (r : BitVec 7) : (sweepShift r).toNat = r.toNat % 8 := BitVec.extractLsb'_toNat _ _ _

theorem sweepShift_eq_zero_iff (r : BitVec 7) : sweepShift r = 0 ↔ r.toNat % 8 = 0 := by
  rw [← BitVec.toNat_inj, sweepShift_toNat]
  rfl

theorem sweepSubtract_eq_decide (r : BitVec 7) : sweepSubtract r = decide (r.toNat / 8 % 2 = 1) :=
  Nat.testBit_eq_decide_div_mod_eq

/-- The default `SWEEP_PERIOD_SCALE` is 1 (log entry 4). -/
theorem Sweep.period_default (w : Sweep) : w.period Config.params = w.reg.toNat / 16 :=
  (Nat.mul_one _).trans (sweepTime_toNat w.reg)

/-- `shadow >> SWEEP.shift` by the numbers of the fields (R174). -/
def Sweep.deltaFormula (w : Sweep) : Nat := w.shadow.toNat / 2 ^ (w.reg.toNat % 8)

theorem Sweep.delta_eq_formula (w : Sweep) : w.delta = w.deltaFormula := by
  rw [Sweep.delta, sweepShift_toNat, Nat.shiftRight_eq_div_pow, Sweep.deltaFormula]

theorem Sweep.deltaFormula_of_lt {w : Sweep} (h : w.shadow.toNat < 2 ^ (w.reg.toNat % 8)) : w.deltaFormula = 0 :=
  Nat.div_eq_of_lt h

/-- The cases of a calculation by the numbers of the fields, with the default `MAX_FREQ` 2047 (log entry 4). -/
theorem sweepCalculate_cases_default (s : State) :
    (s.sweep.reg.toNat % 8 = 0 ∧ sweepCalculate Config.params s = s) ∨
    (s.sweep.reg.toNat % 8 ≠ 0 ∧ s.sweep.reg.toNat / 8 % 2 = 1 ∧
      sweepCalculate Config.params s = sweepWriteBack (s.sweep.shadow.toNat - s.sweep.deltaFormula) s) ∨
    (s.sweep.reg.toNat % 8 ≠ 0 ∧ ¬s.sweep.reg.toNat / 8 % 2 = 1 ∧ 2047 < s.sweep.shadow.toNat + s.sweep.deltaFormula ∧
      sweepCalculate Config.params s = s.disablePulse1) ∨
    (s.sweep.reg.toNat % 8 ≠ 0 ∧ ¬s.sweep.reg.toNat / 8 % 2 = 1 ∧ s.sweep.shadow.toNat + s.sweep.deltaFormula ≤ 2047 ∧
      sweepCalculate Config.params s = sweepWriteBack (s.sweep.shadow.toNat + s.sweep.deltaFormula) s) := by
  have hmax : Config.params.maxFreq = 2047 := rfl
  have hcases := sweepCalculate_cases Config.params s
  rwa [Sweep.delta_eq_formula, ne_eq, sweepShift_eq_zero_iff, sweepSubtract_eq_decide, decide_eq_true_iff,
    decide_eq_false_iff_not, hmax] at hcases

/-- The state with the sweep's step counter at `n`. -/
def State.withScnt (n : Nat) (s : State) : State := { s with sweep := { s.sweep with scnt := n } }

theorem frame_withScnt (n : Nat) (s : State) : Frame [.scnt] s (s.withScnt n) := by
  intro x hx
  cases x <;> first | rfl | exact absurd (by decide) hx

theorem frame_sweepWriteBack (n : Nat) (s : State) : Frame [.shadow, .freq1] s (sweepWriteBack n s) := by
  intro x hx
  cases x <;> first | rfl | exact absurd (by decide) hx

theorem frame_disablePulse1 (s : State) : Frame [.chen .pulse1] s s.disablePulse1 := by
  intro x hx
  cases x
  case chen d => exact congrArg Value.flag (Quad.get_set_other s.chen false fun e => hx (by simp [e]))
  all_goals rfl

/-- At an expiry of the sweep unit `w` of `s` the calculation has led to `t`: the chain of R174 to R177 by the numbers
of the fields, with the default `MAX_FREQ` (log entry 4). -/
def SweepCalculated (w : Sweep) (s t : State) : Prop :=
  if w.reg.toNat % 8 = 0 then Frame [.scnt] s t
  else if w.reg.toNat / 8 % 2 = 1 then
    item t .shadow = .num (w.shadow.toNat - w.deltaFormula) ∧ item t .freq1 = .num (w.shadow.toNat - w.deltaFormula) ∧
      Frame [.scnt, .shadow, .freq1] s t
  else if 2047 < w.shadow.toNat + w.deltaFormula then
    item t (.chen .pulse1) = .flag false ∧ Frame [.scnt, .chen .pulse1] s t
  else item t .shadow = .num (w.shadow.toNat + w.deltaFormula) ∧ item t .freq1 = .num (w.shadow.toNat + w.deltaFormula) ∧
    Frame [.scnt, .shadow, .freq1] s t

/-- From `s` to `t` the sweep has made one tick: the chain of R174 by the numbers of its fields. -/
def SweepTicked (s t : State) : Prop :=
  if s.sweep.reg.toNat / 16 = 0 then Frame [] s t
  else if s.sweep.scnt + 1 < s.sweep.reg.toNat / 16 then
    item t .scnt = .num (s.sweep.scnt + 1) ∧ Frame [.scnt] s t
  else item t .scnt = .num 0 ∧ SweepCalculated s.sweep s t

theorem item_scnt_sweepCalculate (p : Config.Params) (s : State) :
    item (sweepCalculate p s) .scnt = item s .scnt := by
  rcases sweepCalculate_cases p s with ⟨_, e⟩ | ⟨_, _, e⟩ | ⟨_, _, _, e⟩ | ⟨_, _, _, e⟩ <;> rw [e] <;> rfl

/-- The result of a calculation is written back whole when it fits the register. -/
theorem sweepWriteBack_withScnt {n : Nat} (hn : n < 2 ^ 11) (s : State) :
    item (sweepWriteBack n (s.withScnt 0)) .shadow = .num n ∧ item (sweepWriteBack n (s.withScnt 0)) .freq1 = .num n ∧
      Frame [.scnt, .shadow, .freq1] s (sweepWriteBack n (s.withScnt 0)) :=
  have h : Value.num (BitVec.ofNat 11 n).toNat = .num n :=
    congrArg Value.num ((BitVec.toNat_ofNat n 11).trans (Nat.mod_eq_of_lt hn))
  ⟨h, h, frame_trans (frame_withScnt 0 s) (frame_sweepWriteBack n _)⟩

theorem sweepCalculated_sweepCalculate (s : State) :
    SweepCalculated s.sweep s (sweepCalculate Config.params (s.withScnt 0)) := by
  have hshadow := s.sweep.shadow.isLt
  have hreg : (s.withScnt 0).sweep.reg = s.sweep.reg := rfl
  have hsh : (s.withScnt 0).sweep.shadow = s.sweep.shadow := rfl
  have hdelta : (s.withScnt 0).sweep.deltaFormula = s.sweep.deltaFormula := rfl
  have hcases := sweepCalculate_cases_default (s.withScnt 0)
  rw [hreg, hsh, hdelta] at hcases
  unfold SweepCalculated
  rcases hcases with ⟨h0, e⟩ | ⟨h0, hsub, e⟩ | ⟨h0, hadd, hover, e⟩ | ⟨h0, hadd, hle, e⟩ <;> rw [e]
  · rw [if_pos h0]
    exact frame_withScnt 0 s
  · rw [if_neg h0, if_pos hsub]
    exact sweepWriteBack_withScnt ((Nat.sub_le _ _).trans_lt hshadow) s
  · rw [if_neg h0, if_neg hadd, if_pos hover]
    exact ⟨rfl, frame_trans (frame_withScnt 0 s) (frame_disablePulse1 _)⟩
  · rw [if_neg h0, if_neg hadd, if_neg (Nat.not_lt.mpr hle)]
    exact sweepWriteBack_withScnt (Nat.lt_succ_of_le hle) s

theorem sweepTicked_sweepTick (s : State) : SweepTicked s (sweepTick Config.params s) := by
  have hcases := sweepTick_cases Config.params s
  rw [Sweep.period_default] at hcases
  unfold SweepTicked
  rcases hcases with ⟨h0, e⟩ | ⟨h0, hle, e⟩ | ⟨h0, hlt, e⟩ <;> rw [e]
  · rw [if_pos h0]
    exact frame_refl _ _
  · rw [if_neg h0, if_neg (Nat.not_lt.mpr hle)]
    exact ⟨item_scnt_sweepCalculate _ _, sweepCalculated_sweepCalculate s⟩
  · rw [if_neg h0, if_pos hlt]
    exact ⟨rfl, frame_withScnt _ s⟩

theorem SweepTicked.respond {s t : State} (r : Word) (h : SweepTicked s t) : SweepTicked s (t.respond r) := by
  simpa only [SweepTicked, SweepCalculated, Frame, item_respond] using h

/-- Settles O46: the illegal operand is that of format Z (O10), and `STICK` performs the tick on the used state. -/
theorem sweepTickLaw : Obligations.SweepTick := by
  obtain ⟨-, -, -, hstick, -⟩ := formatFieldsAreChecked
  refine ⟨fun z => (hstick z).mpr, fun s => ?_⟩
  obtain ⟨t, ht, hanswered, rfl⟩ := exec_of_performs_spec (i := .stick) rfl s
  exact ⟨_, ht, hanswered, (sweepTicked_sweepTick (used s)).respond 0⟩

/-! ### Any number of sweep ticks -/

/-- With nothing pending every tick acts on the state as it is. -/
theorem execAll_replicate_of_performs {i : Instr} (hi : performs i = true) (n : Nat) {s : State}
    (hs : s.pending = false) :
    execAll (List.replicate n i) s = .next (performAll (List.replicate n i) s) := by
  cases n with
  | zero => rfl
  | succ n =>
    rw [execAll_of_performs (fun j hj => List.eq_of_mem_replicate hj ▸ hi) (by simp), used, use_of_not_pending _ hs]

/-- What an instruction keeps, any number of it keeps. -/
theorem performAll_replicate_keeps {P : State → Prop} {i : Instr} (h : ∀ t, P t → P ((effect i t).respond 0)) (n : Nat)
    {s : State} (hs : P s) : P (performAll (List.replicate n i) s) := by
  induction n generalizing s with
  | zero => exact hs
  | succ n ih => exact ih (h s hs)

/-! ### The overflow latches (42_modulators.md R175, 70_reset_and_hazards.md R247) -/

/-- The sweep adds and overflows, at the default `MAX_FREQ` (log entry 4), and channel 0 is off. -/
structure OverflowLatched (s : State) : Prop where
  off : s.chen.pulse1 = false
  adds : s.sweep.reg.toNat / 8 % 2 = 0
  overflows : 2047 < s.sweep.shadow.toNat + s.sweep.deltaFormula

/-- The step counter has no part in it. -/
theorem OverflowLatched.of_frame {s t : State} (h : OverflowLatched s) (hf : Frame [.scnt] s t) :
    OverflowLatched t := by
  have hreg : t.sweep.reg = s.sweep.reg := Value.num_toNat_inj (hf .sweep (by decide))
  have hshadow : t.sweep.shadow = s.sweep.shadow := Value.num_toNat_inj (hf .shadow (by decide))
  have hchen : t.chen.pulse1 = s.chen.pulse1 := Value.flag.inj (hf (.chen .pulse1) (by decide))
  have hdelta : t.sweep.deltaFormula = s.sweep.deltaFormula := by
    rw [Sweep.deltaFormula, Sweep.deltaFormula, hreg, hshadow]
  constructor
  · exact hchen.trans h.off
  · rw [hreg, h.adds]
  · rw [hshadow, hdelta]
    exact h.overflows

/-- Of the outcomes of a calculation, an addition that overflows leaves the two that write nothing back, and the flag
is off already. -/
theorem OverflowLatched.frame_of_sweepCalculated {s t : State} (h : OverflowLatched s)
    (hc : SweepCalculated s.sweep s t) : Frame [.scnt] s t := by
  have hadds : ¬s.sweep.reg.toNat / 8 % 2 = 1 := by rw [h.adds]; decide
  rw [SweepCalculated, if_neg hadds, if_pos h.overflows] at hc
  split at hc
  · exact hc
  · obtain ⟨hoff, hframe⟩ := hc
    exact frame_of_cons (frame_mono hframe (List.Perm.swap _ _ _).subset)
      (hoff.trans (congrArg Value.flag h.off.symm))

theorem OverflowLatched.frame_of_sweepTicked {s t : State} (h : OverflowLatched s) (ht : SweepTicked s t) :
    Frame [.scnt] s t := by
  unfold SweepTicked at ht
  split at ht
  · exact frame_mono ht (List.nil_subset _)
  split at ht
  · exact ht.2
  · exact h.frame_of_sweepCalculated ht.2

/-- Settles O47: every tick keeps what the start has but for the step counter, hence the overflow. -/
theorem sweepOverflowLatches : Obligations.SweepOverflowLatches := by
  intro n s hpending hoff hadds hoverflows
  have hs : OverflowLatched s := ⟨hoff, hadds, hoverflows⟩
  refine ⟨_, execAll_replicate_of_performs rfl n hpending, ?_⟩
  apply performAll_replicate_keeps (P := Frame [.scnt] s)
  · intro t ht
    have htick := (hs.of_frame ht).frame_of_sweepTicked (sweepTicked_sweepTick t)
    exact frame_respond 0 (frame_mono (frame_trans ht htick) (by simp))
  · exact frame_refl _ s

/-! ### Subtraction is safe (42_modulators.md R176) -/

/-- From `s` to `t` the shadow has not risen, not moved if it was below `2 ^ shift`, and `SWEEP` and the flags are as
they were. -/
structure ShadowNotRaised (s t : State) : Prop where
  reg : t.sweep.reg = s.sweep.reg
  chen : t.chen = s.chen
  shadow_le : t.sweep.shadow.toNat ≤ s.sweep.shadow.toNat
  small : s.sweep.shadow.toNat < 2 ^ (s.sweep.reg.toNat % 8) → t.sweep.shadow = s.sweep.shadow

theorem ShadowNotRaised.refl (s : State) : ShadowNotRaised s s := ⟨rfl, rfl, le_rfl, fun _ => rfl⟩

theorem ShadowNotRaised.trans {s t u : State} (h : ShadowNotRaised s t) (k : ShadowNotRaised t u) :
    ShadowNotRaised s u where
  reg := k.reg.trans h.reg
  chen := k.chen.trans h.chen
  shadow_le := k.shadow_le.trans h.shadow_le
  small hs := by
    have hst := h.small hs
    have ht : t.sweep.shadow.toNat < 2 ^ (t.sweep.reg.toNat % 8) := by rwa [hst, h.reg]
    exact (k.small ht).trans hst

/-- A tick that takes `shadow >> shift`, or nothing, from the shadow. -/
theorem shadowNotRaised_of_frame {s t : State} (hf : Frame [.scnt, .shadow, .freq1] s t)
    (hshadow : t.sweep.shadow = s.sweep.shadow ∨
      item t .shadow = .num (s.sweep.shadow.toNat - s.sweep.deltaFormula)) : ShadowNotRaised s t where
  reg := Value.num_toNat_inj (hf .sweep (by decide))
  chen := Quad.ext_get fun ch => Value.flag.inj (hf (.chen ch) (by simp))
  shadow_le := by
    rcases hshadow with h | h
    · rw [h]
    · exact (Value.num.inj h).trans_le (Nat.sub_le _ _)
  small hlt := by
    rcases hshadow with h | h
    · exact h
    · rw [Sweep.deltaFormula_of_lt hlt] at h
      exact Value.num_toNat_inj h

theorem shadowNotRaised_of_scnt {s t : State} (hf : Frame [.scnt] s t) : ShadowNotRaised s t :=
  shadowNotRaised_of_frame (frame_mono hf (by simp)) (.inl (Value.num_toNat_inj (hf .shadow (by decide))))

/-- Subtraction never overflows, so that a tick counts or takes from the shadow. -/
theorem shadowNotRaised_of_sweepTicked {s t : State} (hsub : s.sweep.reg.toNat / 8 % 2 = 1) (ht : SweepTicked s t) :
    ShadowNotRaised s t := by
  rw [SweepTicked, SweepCalculated, if_pos hsub] at ht
  split at ht
  · exact shadowNotRaised_of_scnt (frame_mono ht (List.nil_subset _))
  split at ht
  · exact shadowNotRaised_of_scnt ht.2
  obtain ⟨-, ht⟩ := ht
  split at ht
  · exact shadowNotRaised_of_scnt ht
  · obtain ⟨hshadow, -, hframe⟩ := ht
    exact shadowNotRaised_of_frame hframe (.inr hshadow)

/-- Settles O48: no tick raises the shadow, and every tick leaves the mode. -/
theorem sweepSubtractionIsSafe : Obligations.SweepSubtractionIsSafe := by
  intro n s hpending hsub
  have hkeeps : ShadowNotRaised s (performAll (List.replicate n .stick) s) := by
    apply performAll_replicate_keeps (P := ShadowNotRaised s)
    · intro t ht
      have htick := shadowNotRaised_of_sweepTicked (by rw [ht.reg, hsub]) ((sweepTicked_sweepTick t).respond 0)
      exact ht.trans htick
    · exact .refl s
  exact ⟨_, execAll_replicate_of_performs rfl n hpending, hkeeps.shadow_le, hkeeps.chen, hkeeps.small⟩

end Sys2Proof.Machine
end

section
/-! PROOF. The mixer and the frame driver: `use()`, `MIX`, the two setters, `RESET`, and `RUN` over one frame and over
many (43_mixer_synth.md R190 to R209). First the lemmas of each statement, then the statement. -/

namespace Sys2Proof.Machine

/-! ### The order of the generators (43_mixer_synth.md R204) -/

/-- Settles O41: `stepAll` is defined as the four advances, and two channels are different fields of the state. -/
theorem generatorsAreIndependent : Obligations.GeneratorsAreIndependent := by
  refine ⟨fun _ _ _ => rfl, fun p a b c d s hab => ?_⟩
  cases a <;> cases b <;> first | rfl | exact absurd rfl hab

/-! ### `powerOnValues()` and `use()` (43_mixer_synth.md R196) -/

/-- Every item but four returns to its power-on value. -/
theorem frame_powerOnValues (s : State) :
    Frame [.fps, .rate, .pcmCap, .pending] State.reset (powerOnValues Config.params s) := by
  intro x hx
  cases x <;> first | rfl | exact absurd (by decide) hx

theorem frame_used_of_pending {s : State} (h : s.pending = true) :
    Frame [.fps, .rate, .pcmCap, .pending] State.reset (used s) := by
  intro x hx
  rw [used, use_of_pending _ h]
  cases x <;> first | exact frame_powerOnValues (resize s) _ hx | exact absurd (by decide) hx

/-- The capacity after a pending resize-and-reset, which resizes only if both rates are set. -/
theorem used_pcmCap_of_pending {s : State} (h : s.pending = true) :
    (used s).pcmCap =
      if s.fps.toNat ≠ 0 ∧ s.rate.toNat ≠ 0 then s.rate.toNat * 256 / s.fps.toNat + 1 else s.pcmCap := by
  have hconfigured : s.configured = true ↔ s.fps.toNat ≠ 0 ∧ s.rate.toNat ≠ 0 := by
    simp [configured_iff, ← BitVec.toNat_inj]
  rw [used, use_of_pending _ h, resize_eq]
  exact if_congr hconfigured rfl rfl

/-- The three commands that are no use keep the capacity and, having no register to write, every register. -/
theorem capacity_and_registers_of_not_use {i : Instr} (hi : isUse i = false) (s : State) :
    (effect i s).pcmCap = s.pcmCap ∧ ∀ x, x.programmable = true → item (effect i s) x = item s x := by
  rcases (isUse_eq_false_iff i).mp hi with ⟨k, rfl⟩ | ⟨v, rfl⟩ | ⟨v, rfl⟩ <;>
    exact ⟨rfl, fun x hx => programmable_effect hx rfl (by simp) (by simp) s⟩

/-- Settles O13: with a reset pending an item has its power-on value (O1) but for the rates and the capacity; a use runs
as on the used state, and the other three commands set `pending` or leave it. -/
theorem useResizesAndResets : Obligations.UseResizesAndResets := by
  refine ⟨fun s => use_of_not_pending _, fun s hs => ⟨use_port _ s, use_responses _ s, fun x => ?_⟩, exec_used,
    fun i s t hi ht hs => ?_⟩
  · have hframe := frame_used_of_pending hs
    cases x
    case fps => exact Value.num_toNat_congr (use_fps _ s)
    case rate => exact Value.num_toNat_congr (use_rate _ s)
    case pcmCap => exact congrArg Value.num (used_pcmCap_of_pending hs)
    case pending => exact congrArg Value.flag (use_pending _ s)
    all_goals exact (hframe _ (by simp)).trans (resetGivesPowerOnValues _)
  · obtain ⟨r, rfl⟩ := exec_next ht
    have hpending := pending_effect_entered_iff i s
    rw [entered_of_not_isUse hi] at hpending ⊢
    obtain ⟨hcap, hregisters⟩ := capacity_and_registers_of_not_use hi s
    refine ⟨hpending.mpr ?_, hcap, fun x hx => (item_respond r _ x).trans (hregisters x hx)⟩
    exact ((isUse_eq_false_iff i).mp hi).imp_left fun hk => ⟨hs, hk⟩

/-! ### `RESET` (43_mixer_synth.md R197) -/

/-- Settles O54: the values of power-on (O1) over the used state, which gives the capacity. -/
theorem resetCommand : Obligations.ResetCommand := by
  obtain ⟨-, -, -, -, -, -, hreset, -⟩ := formatFieldsAreChecked
  refine ⟨fun z => (hreset z).mpr, fun s => ?_⟩
  obtain ⟨t, ht, hanswered, rfl⟩ := exec_of_performs_spec (i := .reset) rfl s
  refine ⟨_, ht, hanswered, fun x => ?_⟩
  rw [item_respond]
  cases x
  case fps => exact Value.num_toNat_congr (use_fps _ s)
  case rate => exact Value.num_toNat_congr (use_rate _ s)
  case pcmCap => rfl
  case pending => exact congrArg Value.flag (use_pending _ s)
  all_goals exact (frame_powerOnValues (used s) _ (by simp)).trans (resetGivesPowerOnValues _)

/-! ### `SETFPS` and `SETRATE` (43_mixer_synth.md R194, R195) -/

theorem exec_setfps_of_ne_zero {v : BitVec 24} (h : v ≠ 0) (s : State) :
    exec (.setfps v) s = .next ((State.invalidate { s with fps := v }).respond 0) := if_neg h

theorem exec_setrate_of_ne_zero {v : BitVec 24} (h : v ≠ 0) (s : State) :
    exec (.setrate v) s = .next ((State.invalidate { s with rate := v }).respond 0) := if_neg h

theorem frame_setfps (v : BitVec 24) (s : State) :
    Frame [.fps, .pending, .pcm] s (State.invalidate { s with fps := v }) := by
  intro x hx
  cases x <;> first | rfl | exact absurd (by decide) hx

theorem frame_setrate (v : BitVec 24) (s : State) :
    Frame [.rate, .pending, .pcm] s (State.invalidate { s with rate := v }) := by
  intro x hx
  cases x <;> first | rfl | exact absurd (by decide) hx

/-- Settles O52: the value for an immediate that is not 0, and the fault of O18 for 0. -/
theorem rateSetters : Obligations.RateSetters := by
  refine fun v s => ⟨fun hv => ?_, fun hv => ?_, ?_, ?_⟩
  · exact ⟨_, exec_setfps_of_ne_zero hv s, answered_respond 0 rfl rfl, rfl, rfl, rfl,
      frame_respond 0 (frame_setfps v s)⟩
  · exact ⟨_, exec_setrate_of_ne_zero hv s, answered_respond 0 rfl rfl, rfl, rfl, rfl,
      frame_respond 0 (frame_setrate v s)⟩
  · rw [(exec_follows _ s).fault_iff, specFault_setfps, if_pos rfl]
  · rw [(exec_follows _ s).fault_iff, specFault_setrate, if_pos rfl]

/-! ### `MIX` (43_mixer_synth.md R190 to R192) -/

theorem volTable_default : ∀ v : BitVec 4, Config.params.volTable[v.toNat] = v.toNat := by decide

theorem mixen_iff (b : BitVec 1) : b = 1 ↔ b.toNat = 1 := BitVec.toNat_inj.symm

theorem panLeft_iff (r : BitVec 2) : panLeft r = true ↔ r.toNat / 2 % 2 = 1 := by
  revert r
  decide

theorem panRight_iff (r : BitVec 2) : panRight r = true ↔ r.toNat / 1 % 2 = 1 := by
  revert r
  decide

/-- The sum of a side is the formula's, if `bit` is the weight of the side's panning bit. -/
theorem acc_eq_formula {side : BitVec 2 → Bool} {bit : Nat} (h : ∀ r, side r = true ↔ r.toNat / bit % 2 = 1)
    (u : State) : acc Config.params side u = accFormula bit u := by
  have hpart (ch : Channel) : contribution Config.params side u ch =
      if (u.mixen.get ch).toNat = 1 ∧ (u.pan.get ch).toNat / bit % 2 = 1 then outFormula u ch else 0 := by
    rw [contribution, volTable_default, chOut_toNat]
    exact if_congr (and_congr (mixen_iff _) (h _)) rfl rfl
  rw [acc, hpart, hpart, hpart, hpart]
  rfl

theorem mvolLeft_toNat (r : BitVec 8) : (mvolLeft r).toNat = r.toNat / 16 % 8 := by
  rw [mvolLeft, BitVec.extractLsb'_toNat, Nat.shiftRight_eq_div_pow]

theorem mvolRight_toNat (r : BitVec 8) : (mvolRight r).toNat = r.toNat % 8 := BitVec.extractLsb'_toNat _ _ _

theorem sampleWord_eq (f : Sample) : sampleWord f = BitVec.ofNat 32 (f.left.toNat * 65536 + f.right.toNat) := by
  apply BitVec.eq_of_toNat_eq
  have hl := f.left.isLt
  have hr := f.right.isLt
  have hshift : (zext f.left <<< 16).toNat = f.left.toNat <<< 16 := by
    simp only [zext, BitVec.toNat_shiftLeft, BitVec.toNat_setWidth, Nat.shiftLeft_eq]
    omega
  have hright : (zext f.right).toNat = f.right.toNat := by
    simp only [zext, BitVec.toNat_setWidth]
    omega
  rw [sampleWord, BitVec.toNat_or, hshift, hright, ← Nat.shiftLeft_add_eq_or_of_lt hr, Nat.shiftLeft_eq,
    BitVec.toNat_ofNat]
  omega

/-- Four channels of at most 15, eight levels, and the scale 64. -/
theorem accFormula_mul_le {bit : Nat} {u : State} {side : BitVec 2 → Bool}
    (h : ∀ r, side r = true ↔ r.toNat / bit % 2 = 1) (level : Nat) :
    accFormula bit u * (level % 8 + 1) * 64 ≤ 30720 := by
  have hacc : accFormula bit u ≤ 15 * 4 := (acc_eq_formula h u).symm.trans_le (acc_le defaultParametersAreLegal _ u)
  have hlevel : level % 8 + 1 ≤ 8 := Nat.mod_lt _ (by decide)
  calc accFormula bit u * (level % 8 + 1) * 64 ≤ 15 * 4 * 8 * 64 := by gcongr
    _ = 30720 := rfl

/-- Settles O50: `MIX` observes the sample, whose two values are exact (O51). -/
theorem mixSumsTheChannels : Obligations.MixSumsTheChannels := by
  obtain ⟨-, -, -, -, hmix, -⟩ := formatFieldsAreChecked
  refine ⟨fun z => (hmix z).mpr, fun s => ⟨accFormula_mul_le panLeft_iff _, accFormula_mul_le panRight_iff _, ?_⟩⟩
  obtain ⟨hleft, hright, -⟩ := pcmValuesFit Config.params (used s) defaultParametersAreLegal
  rw [acc_eq_formula panLeft_iff, mvolLeft_toNat] at hleft
  rw [acc_eq_formula panRight_iff, mvolRight_toNat] at hright
  have hspec := observe_spec (fun u => sampleWord (mixSample Config.params u)) s
  rw [sampleWord_eq, hleft, hright] at hspec
  exact hspec

/-! ### What a frame does (43_mixer_synth.md R198 to R203) -/

theorem cpfFormula_congr {s t : State} (h : t.fps = s.fps) : cpfFormula t = cpfFormula s := by
  rw [cpfFormula, cpfFormula, h]

theorem spfFormula_congr {s t : State} (hfps : t.fps = s.fps) (hrate : t.rate = s.rate) :
    spfFormula t = spfFormula s := by
  rw [spfFormula, spfFormula, hfps, hrate]

theorem configured_congr {s t : State} (hfps : t.fps = s.fps) (hrate : t.rate = s.rate) :
    t.configured = s.configured := by
  rw [State.configured, State.configured, hfps, hrate]

theorem runFrame_pcmLen (s : State) : (runFrame Config.params s).pcmLen = frameSamples s := by
  rw [← frameSamples_modulatorTicks Config.params]
  exact resample_length _ _ _

/-- The two accountings of a frame (R198, R199). -/
theorem runFrame_carries (s : State) :
    (runFrame Config.params s).ccarry = fracPart (cpfFormula s + s.ccarry) ∧
      (runFrame Config.params s).scarry = fracPart (spfFormula s + s.scarry) := by
  rw [← cyclesPerFrame_default, ← samplesPerFrame_default]
  obtain ⟨_, ⟨_, _, _, _, _, _, _, _, rfl⟩, e⟩ := runFrame_touches s
  obtain ⟨_, _, _, _, _, hm⟩ := modulatorTicks_touches Config.params s
  rw [e, hm]
  exact ⟨rfl, rfl⟩

theorem exec_run_of_configured {s : State} (h : s.configured = true) :
    exec .run s = .next ((runFrame Config.params (used s)).respond (BitVec.ofNat 32 (frameSamples (used s)))) :=
  if_pos h

/-- What a frame leaves alone: the registers but `FREQ[0]`, the rates, the capacity, and the flags of the channels that
have no sweep (R203, R209). -/
theorem item_runFrame {x : Item} (hx : (x.programmable = true ∧ x ≠ .freq1) ∨ x = .fps ∨ x = .rate ∨ x = .pending ∨
    x = .pcmCap ∨ x = .chen .pulse2 ∨ x = .chen .wave ∨ x = .chen .noise) (s : State) :
    item (runFrame Config.params s) x = item s x := by
  have hsetup := sameSetup_runFrame s
  obtain ⟨b, -, hchen⟩ := chen_runFrame s
  have hflag {ch : Channel} (h : ch ≠ .pulse1) : item (runFrame Config.params s) (.chen ch) = item s (.chen ch) :=
    congrArg Value.flag ((congrArg (Quad.get · ch) hchen).trans (Quad.get_set_other _ b h))
  rcases hx with ⟨hx, h1⟩ | rfl | rfl | rfl | rfl | rfl | rfl | rfl
  · exact programmable_runFrame hx h1 s
  · exact Value.num_toNat_congr hsetup.fps
  · exact Value.num_toNat_congr hsetup.rate
  · exact congrArg Value.flag hsetup.pending
  · exact congrArg Value.num hsetup.pcmCap
  · exact hflag nofun
  · exact hflag nofun
  · exact hflag nofun

/-- The response of `RUN` holds N: a rate of 24 bits, in a frame of at most 256 seconds (log entry 19). -/
theorem frameSamples_lt {s : State} (h : Invariant s) : frameSamples (used s) < 2 ^ 32 := by
  have hle := frameSamples_le (invariant_used h).scarry
  have hdiv := Nat.div_le_self (s.rate.toNat * 256) s.fps.toNat
  have hrate := s.rate.isLt
  omega

/-- Settles O55: the frame of the used state, with N and the carries by the formulas. -/
theorem runMakesOneFrame : Obligations.RunMakesOneFrame := by
  intro s hfps hrate cycles samples
  have hconfigured := (configured_iff s).mpr ⟨hfps, hrate⟩
  obtain ⟨hccarry, hscarry⟩ := runFrame_carries (used s)
  rw [cpfFormula_congr (use_fps _ s)] at hccarry
  rw [spfFormula_congr (use_fps _ s) (use_rate _ s)] at hscarry
  have hlen := runFrame_pcmLen (used s)
  have hcapacity : (runFrame Config.params (used s)).pcmCap = (used s).pcmCap := (sameSetup_runFrame _).pcmCap
  have hn : frameSamples (used s) = ⌊samples⌋₊ := frameSamples_used s
  have hanswered := answered_effect .run s (BitVec.ofNat 32 ⌊samples⌋₊)
  refine ⟨_, exec_run_of_configured hconfigured, ?_, hlen.trans hn, ?_, ?_, fun hs => ⟨?_, ?_⟩, fun x hx => ?_⟩
  · rw [hn]
    exact hanswered
  · exact congrArg Value.frac (hccarry.trans (fracPart_eq _))
  · exact congrArg Value.frac (hscarry.trans (fracPart_eq _))
  · exact hn ▸ frameSamples_lt hs
  · have hle := frameSamples_le_pcmCap (invariant_used hs) (use_pending _ s) ((use_configured _ s).trans hconfigured)
    exact (hn.symm.trans_le hle).trans_eq hcapacity.symm
  · exact (item_respond _ _ x).trans (item_runFrame hx _)

/-! ### The end state and the samples of a frame (43_mixer_synth.md R206, R207) -/

/-- The accountings write the carries alone, which stepping does not read. -/
theorem frame_stepAll_carryFrame (c : Rat) (s : State) :
    Frame [.ccarry, .scarry] (stepAll Config.params c s) (stepAll Config.params c (carryFrame Config.params s)) := by
  intro x hx
  cases x <;> first | rfl | exact absurd (by decide) hx

theorem frame_withFrame (frame : List Sample) (s : State) : Frame [.pcm] s { s with pcm := frame } := by
  intro x hx
  cases x <;> first | rfl | exact absurd (by decide) hx

/-- Settles O56: by R206's law of the kernel the frame is one step by W from the ticks, but for the carries and the
buffer. -/
theorem runAdvancesByWholeCycles : Obligations.RunAdvancesByWholeCycles := by
  intro s t hs ht
  obtain ⟨-, rfl⟩ := run_next ht
  obtain ⟨frame, -, e⟩ := runFrame_eq (invariant_used hs).drift
  rw [e, ← frameCycles_used]
  exact frame_respond _ (frame_trans (frame_stepAll_carryFrame _ _) (frame_withFrame frame _))

/-- The mix does not read the carries between frames. -/
theorem mixSample_stepAll_carryFrame (c : Rat) (s : State) :
    mixSample Config.params (stepAll Config.params c (carryFrame Config.params s)) =
      mixSample Config.params (stepAll Config.params c s) := rfl

/-- Sample `k` of a frame of N samples and W cycles. -/
theorem runFrame_getElem {s : State} (h : Drifts s) {k : Nat} (hk : k < frameSamples s) :
    (runFrame Config.params s).pcm[k]? = some (mixSample Config.params (stepAll Config.params
      ((k + 1 : Nat) * ((frameCycles Config.params s : Rat) / (frameSamples s : Rat)))
      (modulatorTicks Config.params s))) := by
  have hsample := resample_getElem (frameCycles Config.params s) (frameSamples s) k hk
    (s := carryFrame Config.params (modulatorTicks Config.params s)) (drifts_modulatorTicks h)
  rw [mixSample_stepAll_carryFrame] at hsample
  rw [← hsample, runFrame, frameCycles_modulatorTicks, frameSamples_modulatorTicks]

/-- Settles O57: the sample of the frame of the used state. -/
theorem runSamplesAtEvenInstants : Obligations.RunSamplesAtEvenInstants := by
  intro s t k hs ht hk
  obtain ⟨-, rfl⟩ := run_next ht
  have hlen : ((runFrame Config.params (used s)).respond (BitVec.ofNat 32 (frameSamples (used s)))).pcmLen =
      frameSamples (used s) := runFrame_pcmLen (used s)
  rw [hlen] at hk ⊢
  rw [← frameCycles_used]
  exact runFrame_getElem (invariant_used hs).drift hk

/-! ### Any number of frames (43_mixer_synth.md R198, R199) -/

/-- A state `j` frames after carries of 0, at `c` cycles and `q` samples per frame: the carries are what the whole parts
of the exact products leave. -/
structure AfterFrames (c q : Rat) (j : Nat) (s : State) : Prop where
  invariant : Invariant s
  pending : s.pending = false
  configured : s.configured = true
  cycles : cpfFormula s = c
  samples : spfFormula s = q
  ccarry : s.ccarry = fracPart (j * c)
  scarry : s.scarry = fracPart (j * q)

section
variable {c q : Rat} {j : Nat} {s : State}

/-- What is carried into a frame is the fraction of the frames before, so that the sum's fraction is that of all. -/
theorem fracPart_succ_mul (hc : 0 ≤ c) : fracPart (c + fracPart (j * c)) = fracPart ((j + 1 : Nat) * c) := by
  have hcarry := isCarry_fracPart (q := j * c) (by positivity)
  rw [add_comm, fracPart_carry (add_nonneg hcarry.1 hc)]
  push_cast
  ring_nf

/-- The counts add up: N is the growth of the floor of the exact product. -/
theorem AfterFrames.floor_add_frameSamples (h : AfterFrames c q j s) :
    ⌊j * q⌋₊ + frameSamples s = ⌊(j + 1 : Nat) * q⌋₊ := by
  have hq : 0 ≤ q := h.samples ▸ spfFormula_nonneg s
  have hcarry := isCarry_fracPart (q := j * q) (by positivity)
  rw [frameSamples, samplesPerFrame_default, h.samples, h.scarry, add_comm q, ← floorNat_eq,
    floorNat_carry (add_nonneg hcarry.1 hq), floorNat_eq]
  push_cast
  ring_nf

/-- A carry below 1 adds at most one sample. -/
theorem AfterFrames.frameSamples_cases (h : AfterFrames c q j s) :
    frameSamples s = ⌊q⌋₊ ∨ frameSamples s = ⌊q⌋₊ + 1 := by
  have hq : 0 ≤ q := h.samples ▸ spfFormula_nonneg s
  obtain ⟨h0, h1⟩ := h.invariant.scarry
  have hlow : ⌊q⌋₊ ≤ ⌊q + s.scarry⌋₊ := Nat.floor_mono (by linarith)
  have hhigh : ⌊q + s.scarry⌋₊ ≤ ⌊q⌋₊ + 1 :=
    (Nat.floor_mono (by push_cast; linarith)).trans_eq (Nat.floor_add_natCast hq 1)
  rw [frameSamples, samplesPerFrame_default, h.samples, floorNat_eq]
  omega

/-- One more frame: its response is N, and the carries are those of `j + 1` frames. -/
theorem AfterFrames.exec_run (h : AfterFrames c q j s) :
    ∃ t r, exec .run s = .next t ∧ t.responses = s.responses ++ [r] ∧ r.toNat = frameSamples s ∧
      AfterFrames c q (j + 1) t := by
  have hused : used s = s := use_of_not_pending _ h.pending
  have hrun := exec_run_of_configured h.configured
  have hfits := frameSamples_lt h.invariant
  rw [hused] at hrun hfits
  have hsetup := sameSetup_runFrame s
  obtain ⟨hccarry, hscarry⟩ := runFrame_carries s
  have hc : 0 ≤ c := h.cycles ▸ cpfFormula_nonneg s
  have hq : 0 ≤ q := h.samples ▸ spfFormula_nonneg s
  rw [h.cycles, h.ccarry, fracPart_succ_mul hc] at hccarry
  rw [h.samples, h.scarry, fracPart_succ_mul hq] at hscarry
  refine ⟨_, BitVec.ofNat 32 (frameSamples s), hrun, ?_, ?_, ?_⟩
  · rw [respond_responses, (samePort_runFrame s).responses]
  · rw [BitVec.toNat_ofNat, Nat.mod_eq_of_lt hfits]
  · exact
      { invariant := invariant_exec h.invariant hrun
        pending := hsetup.pending.trans h.pending
        configured := (configured_congr hsetup.fps hsetup.rate).trans h.configured
        cycles := (cpfFormula_congr hsetup.fps).trans h.cycles
        samples := (spfFormula_congr hsetup.fps hsetup.rate).trans h.samples
        ccarry := hccarry
        scarry := hscarry }

/-- `n` more frames, by induction on `n`. -/
theorem AfterFrames.execAll_run (n : Nat) (h : AfterFrames c q j s) :
    ∃ t counts, execAll (List.replicate n .run) s = .next t ∧ t.responses = s.responses ++ counts ∧
      counts.length = n ∧ ⌊j * q⌋₊ + (counts.map (·.toNat)).sum = ⌊(j + n : Nat) * q⌋₊ ∧
      (∀ r ∈ counts, r.toNat = ⌊q⌋₊ ∨ r.toNat = ⌊q⌋₊ + 1) ∧ AfterFrames c q (j + n) t := by
  induction n generalizing j s with
  | zero => exact ⟨s, [], rfl, (List.append_nil _).symm, rfl, rfl, nofun, h⟩
  | succ n ih =>
    obtain ⟨u, r, hrun, hanswer, hr, hu⟩ := h.exec_run
    obtain ⟨t, counts, hall, hresponses, hlength, hsum, hsizes, ht⟩ := ih hu
    have hfloor := h.floor_add_frameSamples
    rw [Nat.add_right_comm, Nat.add_assoc] at hsum ht
    refine ⟨t, r :: counts, ?_, ?_, ?_, ?_, ?_, ht⟩
    · simp only [List.replicate_succ, execAll, hrun, hall]
    · rw [hresponses, hanswer, List.append_assoc, List.singleton_append]
    · rw [List.length_cons, hlength]
    · rw [List.map_cons, List.sum_cons, hr, ← add_assoc, hfloor, hsum]
    · exact List.forall_mem_cons.mpr ⟨hr ▸ h.frameSamples_cases, hsizes⟩

end

/-- Settles O58: carries of 0 are those after 0 frames. -/
theorem longRunRateIsExact : Obligations.LongRunRateIsExact := by
  intro n s hs hpending hfps hrate hccarry hscarry
  have hzero (q : Rat) : fracPart ((0 : Nat) * q) = 0 := by simp [fracPart_eq]
  have hstart : AfterFrames (cpfFormula s) (spfFormula s) 0 s :=
    ⟨hs, hpending, (configured_iff s).mpr ⟨hfps, hrate⟩, rfl, rfl, by rw [hzero, hccarry], by rw [hzero, hscarry]⟩
  obtain ⟨t, counts, hall, hresponses, hlength, hsum, hsizes, ht⟩ := hstart.execAll_run n
  rw [Nat.cast_zero, zero_mul, Nat.floor_zero, zero_add, Nat.zero_add] at hsum
  rw [Nat.zero_add] at ht
  exact ⟨t, counts, hall, hresponses, hlength, hsum, hsizes, ht.ccarry.trans (fracPart_eq _),
    ht.scarry.trans (fracPart_eq _)⟩

end Sys2Proof.Machine
end

section
/-! PROOF. The faults: the word and the cause code a fault records, the host's view of a fault, and the two policies
(60_exceptions.md R220 to R233). First the lemmas of each statement, then the statement. -/

namespace Sys2Proof.Machine

/-! ### The word and the code of a fault (60_exceptions.md R221, R222) -/

theorem Fault.code_mem (f : Fault) : f.code ∈ [1, 2, 3, 4] := by
  cases f <;> simp [Fault.code]

@[simp] theorem decodeFault_word (e : DecodeError) (w : Word) : (decodeFault e w).word = w := by
  cases e <;> rfl

/-- The fault of an instruction records the word of that instruction. -/
theorem word_of_specFault {i : Instr} {s : State} {f : Fault} (h : specFault i s = some f) : f.word = encode i := by
  obtain ⟨k, rfl, -, rfl⟩ | ⟨rfl, -, rfl⟩ | ⟨rfl, rfl⟩ | ⟨rfl, rfl⟩ := (specFault_eq_some_iff i s f).mp h
  · exact (encode_rdpcm k).symm
  all_goals rfl

theorem word_of_exec_fault {i : Instr} {s : State} {f : Fault} (h : exec i s = .fault f) : f.word = encode i :=
  word_of_specFault (((exec_follows i s).fault_iff f).mp h)

/-- A word that decodes is the word of its instruction; one that does not is recorded as it is. -/
theorem word_of_command_fault {w : Word} {s : State} {f : Fault} (h : command w s = .fault f) : f.word = w := by
  cases hw : decode w with
  | instr i =>
    rw [command_of_instr hw] at h
    exact (word_of_exec_fault h).trans (encodeOfDecode w i hw)
  | bad e =>
    rw [command_of_bad hw] at h
    cases h
    exact decodeFault_word e w

theorem command_not_refused (w : Word) (s : State) (r : Refusal) : command w s ≠ .refused r := by
  cases hw : decode w with
  | instr i => exact command_of_instr hw s ▸ (exec_follows i s).not_refused r
  | bad e => rw [command_of_bad hw]; nofun

/-- Settles O19: a step with a command in the port is that command, and one without is none that can fault. -/
theorem faultsRecordTheCommandWord : Obligations.FaultsRecordTheCommandWord := by
  intro s
  cases hport : s.port with
  | nil =>
    rw [step_of_port_nil hport]
    exact ⟨nofun, nofun⟩
  | cons w rest =>
    rw [step_of_port_cons hport]
    exact ⟨command_not_refused w _, fun f h => ⟨congrArg some (word_of_command_fault h).symm, f.code_mem⟩⟩

/-! ### The host's view of a fault (60_exceptions.md R221, R233) -/

theorem issue_of_command_fault {w : Word} {s : State} {f : Fault} (h : command w s = .fault f) :
    issue w s = (s, .fault f) := by
  simp only [issue, h]

theorem session_cons (w : Word) (ws : List Word) (s : State) :
    session (w :: ws) s = ((session ws (issue w s).1).1, (issue w s).2 :: (session ws (issue w s).1).2) := rfl

/-- Settles O20: the rest of the session starts from the state that issuing the faulting command leaves. -/
theorem faultLeavesTheStateAndTheNextRuns : Obligations.FaultLeavesTheStateAndTheNextRuns := by
  intro w ws s f h
  have hissue := issue_of_command_fault h
  exact ⟨by rw [hissue], by rw [session_cons, hissue]⟩

/-! ### The two policies (60_exceptions.md R220, R228) -/

theorem raise_of_ignore {p : Config.Params} (h : p.illegalPolicy = .ignore) (f : Fault) (s : State) :
    raise p f s = .next (s.respond 0) := by
  simp only [raise, h]

theorem raise_of_fault {p : Config.Params} (h : p.illegalPolicy = .fault) (f : Fault) (s : State) :
    raise p f s = .fault f := by
  simp only [raise, h]

/-- Settles O21: under `ignore` the response is the one change, and no item is part of it. -/
theorem illegalPolicyIsFollowed : Obligations.IllegalPolicyIsFollowed := fun _ f s =>
  ⟨fun h => ⟨_, raise_of_ignore h f s, answered_respond 0 rfl rfl, frame_respond 0 (frame_refl _ s)⟩,
    fun h => raise_of_fault h f s⟩

end Sys2Proof.Machine
end

section
/-! PROOF. Reset and the hazards of the command set: a frequency write under an active sweep, the change of a rate, and
the silence after a reset (70_reset_and_hazards.md R242, R244, R246). First the lemmas of each statement, then the
statement. -/

namespace Sys2Proof.Machine

/-! ### A frequency write under an active sweep (70_reset_and_hazards.md R246) -/

/-- The next tick expires and its calculation gives a frequency, at the default `MAX_FREQ` and `SWEEP_PERIOD_SCALE`
(log entry 4): the active sweep of R246 at its expiry. -/
structure Sweep.WritesBack (w : Sweep) : Prop where
  active : w.reg.toNat / 16 ≠ 0
  expires : w.reg.toNat / 16 ≤ w.scnt + 1
  shifts : w.reg.toNat % 8 ≠ 0
  fits : w.reg.toNat / 8 % 2 = 1 ∨ w.shadow.toNat + w.deltaFormula ≤ 2047

/-- The frequency that a calculation without overflow gives (42_modulators.md R174). -/
def Sweep.result (w : Sweep) : Nat :=
  if w.reg.toNat / 8 % 2 = 1 then w.shadow.toNat - w.deltaFormula else w.shadow.toNat + w.deltaFormula

theorem sweepTick_of_expires {s : State} (hactive : s.sweep.reg.toNat / 16 ≠ 0)
    (hexpires : s.sweep.reg.toNat / 16 ≤ s.sweep.scnt + 1) :
    sweepTick Config.params s = sweepCalculate Config.params (s.withScnt 0) := by
  have hcases := sweepTick_cases Config.params s
  rw [Sweep.period_default] at hcases
  rcases hcases with ⟨h0, -⟩ | ⟨-, -, e⟩ | ⟨-, hlt, -⟩
  · exact absurd h0 hactive
  · exact e
  · exact absurd hexpires (Nat.not_le.mpr hlt)

theorem sweepCalculate_of_fits {s : State} (hshifts : s.sweep.reg.toNat % 8 ≠ 0)
    (hfits : s.sweep.reg.toNat / 8 % 2 = 1 ∨ s.sweep.shadow.toNat + s.sweep.deltaFormula ≤ 2047) :
    sweepCalculate Config.params s = sweepWriteBack s.sweep.result s := by
  unfold Sweep.result
  rcases sweepCalculate_cases_default s with ⟨h0, -⟩ | ⟨-, hsub, e⟩ | ⟨-, hadd, hover, -⟩ | ⟨-, hadd, -, e⟩
  · exact absurd h0 hshifts
  · rw [e, if_pos hsub]
  · exact absurd hover (Nat.not_lt.mpr (hfits.resolve_left hadd))
  · rw [e, if_neg hadd]

/-- What is written back is computed from the Sweep unit alone. -/
theorem sweepTick_of_writesBack {s : State} (h : s.sweep.WritesBack) :
    sweepTick Config.params s = sweepWriteBack s.sweep.result (s.withScnt 0) :=
  (sweepTick_of_expires h.active h.expires).trans (sweepCalculate_of_fits h.shifts h.fits)

theorem sweepWriteBack_withScnt_setFreq1 (n k : Nat) (d : BitVec 11) (s : State) :
    sweepWriteBack n ((setFreq1 d s).withScnt k) = sweepWriteBack n (s.withScnt k) := rfl

/-- The write of `FREQ[0]` leaves the Sweep unit, and the write-back replaces what it wrote. -/
theorem sweepTick_setFreq1 {s : State} (h : s.sweep.WritesBack) (d : BitVec 11) :
    sweepTick Config.params (setFreq1 d s) = sweepTick Config.params s := by
  have hset : (setFreq1 d s).sweep = s.sweep := setFreq1_sweep d s
  rw [sweepTick_of_writesBack h, sweepTick_of_writesBack (hset ▸ h), hset, sweepWriteBack_withScnt_setFreq1]

/-- Settles O49: the ticks with and without the write end in the same state but for the response to the write. -/
theorem staleShadowWins : Obligations.StaleShadowWins := by
  intro d s t u ht hu hactive hshifts hexpires hfits
  have hsweep : (used s).sweep.WritesBack := ⟨hactive, hexpires, hshifts, hfits⟩
  have hwrite := execAll_of_performs (is := [.wrFreq1 d, .stick])
    (List.forall_mem_cons.mpr ⟨rfl, List.forall_mem_singleton.mpr rfl⟩) (List.cons_ne_nil _ _) s
  have htick := execAll_of_performs (is := [.stick]) (List.forall_mem_singleton.mpr rfl) (List.cons_ne_nil _ _) s
  obtain rfl := Host.Outcome.next.inj (ht.symm.trans hwrite)
  obtain rfl := Host.Outcome.next.inj (hu.symm.trans htick)
  have hboth : performAll [.wrFreq1 d, .stick] (used s) = (performAll [.stick] (used s)).respond 0 :=
    calc performAll [.wrFreq1 d, .stick] (used s)
        = (sweepTick Config.params ((setFreq1 d (used s)).respond 0)).respond 0 := rfl
      _ = ((sweepTick Config.params (used s)).respond 0).respond 0 := by
        rw [sweepTick_respond, sweepTick_setFreq1 hsweep]
  rw [hboth]
  exact frame_respond 0 (frame_refl _ _)

/-! ### The change of a rate (70_reset_and_hazards.md R244) -/

theorem pending_of_setter_next {v : BitVec 24} {s t : State}
    (h : exec (.setfps v) s = .next t ∨ exec (.setrate v) s = .next t) : t.pending = true := by
  rcases h with h | h
  · rw [(setfps_next h).2]
    rfl
  · rw [(setrate_next h).2]
    rfl

/-- Power-on clears the programmable registers and the wave RAM (O1). -/
theorem item_reset_of_programmable {x : Item} (hx : x.programmable = true) : item State.reset x = .num 0 := by
  rw [resetGivesPowerOnValues]
  cases x <;> first | rfl | cases hx

/-- Settles O53: either setter leaves a reset pending, and the next use performs it. -/
theorem rateChangeWipesRegisters : Obligations.RateChangeWipesRegisters := by
  intro v s t x h hx
  have hkept : x ∉ [.fps, .rate, .pcmCap, .pending] := by
    intro hmem
    fin_cases hmem <;> cases hx
  exact (frame_used_of_pending (pending_of_setter_next h) x hkept).trans (item_reset_of_programmable hx)

/-! ### The silence after a reset (70_reset_and_hazards.md R242) -/

/-- The mixer enable of every channel is 0. -/
def Muted (s : State) : Prop := ∀ ch, s.mixen.get ch = 0

section
variable {s : State} (h : Muted s)
include h

theorem contribution_of_muted (p : Config.Params) (side : BitVec 2 → Bool) (ch : Channel) :
    contribution p side s ch = 0 := by
  apply if_neg
  rw [h ch]
  exact fun hand => absurd hand.1 (by decide)

/-- Nothing is heard of a muted state, whatever its generators do. -/
theorem mixSample_of_muted (p : Config.Params) : mixSample p s = ⟨0, 0⟩ := by
  have hside (side : BitVec 2 → Bool) (level : BitVec 3) : sideValue p side level s = 0 := by
    simp only [sideValue, acc, contribution_of_muted h, zero_mul, add_zero]
  rw [mixSample, hside, hside]
  rfl

theorem muted_modulatorTicks (p : Config.Params) : Muted (modulatorTicks p s) := by
  obtain ⟨_, _, _, _, _, e⟩ := modulatorTicks_touches p s
  rw [e]
  exact h

theorem muted_stepAll (p : Config.Params) (c : Rat) : Muted (stepAll p c s) := by
  obtain ⟨_, _, _, _, _, _, _, _, e⟩ := stepped_stepAll p c s
  rw [e]
  exact h

/-- Every sample of a frame is the mix of a state that the ticks and the steps leave muted (R206). -/
theorem pcm_runFrame_of_muted (hd : Drifts s) : ∀ f ∈ (runFrame Config.params s).pcm, f = ⟨0, 0⟩ := by
  intro f hf
  obtain ⟨k, hk⟩ := List.mem_iff_getElem?.mp hf
  obtain ⟨hlt, -⟩ := List.getElem?_eq_some_iff.mp hk
  have hsample := runFrame_getElem hd (hlt.trans_eq (runFrame_pcmLen s))
  rw [hk, mixSample_of_muted (muted_stepAll (muted_modulatorTicks h _) _ _)] at hsample
  exact Option.some.inj hsample

end

theorem reset_next {s t : State} (h : exec .reset s = .next t) :
    t = (powerOnValues Config.params (used s)).respond 0 := exec_next_zero rfl h

theorem used_of_reset_next {s t : State} (h : exec .reset s = .next t) : used t = t := by
  obtain rfl := reset_next h
  exact use_of_not_pending _ (use_pending _ s)

theorem muted_of_reset_next {s t : State} (h : exec .reset s = .next t) : Muted t := by
  obtain rfl := reset_next h
  exact Quad.get_all 0

theorem drifts_of_reset_next {s t : State} (h : exec .reset s = .next t) : Drifts t := by
  obtain rfl := reset_next h
  intro ch
  cases ch <;> exact isCarry_zero

/-- N of the first frame after `RESET`: the rates are kept, and no sample is carried in (43_mixer_synth.md R197,
R199). -/
theorem frameSamples_of_reset_next {s t : State} (h : exec .reset s = .next t) :
    frameSamples t = ⌊spfFormula s⌋₊ := by
  obtain rfl := reset_next h
  have hspf : spfFormula ((powerOnValues Config.params (used s)).respond 0) = spfFormula s :=
    spfFormula_congr (use_fps _ s) (use_rate _ s)
  have hscarry : ((powerOnValues Config.params (used s)).respond 0).scarry = 0 := rfl
  rw [frameSamples, samplesPerFrame_default, hspf, hscarry, add_zero, floorNat_eq]

/-- Settles O59: `RESET` mutes the block, and neither a frame nor `MIX` hears anything of a muted state. -/
theorem silenceAfterReset : Obligations.SilenceAfterReset := by
  intro s t ht
  have hused := used_of_reset_next ht
  have hmuted := muted_of_reset_next ht
  refine ⟨fun u hu => ?_, ?_⟩
  · obtain ⟨-, rfl⟩ := run_next hu
    rw [hused]
    exact ⟨(runFrame_pcmLen t).trans (frameSamples_of_reset_next ht),
      pcm_runFrame_of_muted hmuted (drifts_of_reset_next ht)⟩
  · obtain ⟨u, hu, hanswered, -⟩ := observe_spec (fun v => sampleWord (mixSample Config.params v)) t
    rw [hused, mixSample_of_muted hmuted] at hanswered
    exact ⟨u, hu, hanswered⟩

end Sys2Proof.Machine
end
